-- ==== Sys2Proof/Word.lean ====
section
/-! DEFINITION. The bit-vector types the spec's values have (00_scope R6, R9): 32-bit words, chip register bytes. -/

namespace Sys2Proof

/-- A command word, operand word or result word: WORD = 32 bits (R6). A `u32` is such a word read by `toNat`,
an `i32` is such a word read by `toInt` (R9, R11). -/
abbrev Word := BitVec 32

/-- `u8`: one chip register byte, a register address, a bank number or a mask (R9, R61). -/
abbrev Byte := BitVec 8

/-- A 7-bit register-bus address (R63). -/
abbrev BusAddr := BitVec 7

/-- One 64-bit register-sequence ROM entry (R103). -/
abbrev RomWord := BitVec 64

end Sys2Proof
end

