-- ==== Sys2Proof/Config.lean ====
section
/-! DEFINITION. The implementation parameters of 00_scope R6 as plain data, the names they are indexed by, and the two
constants with no body: the OPEN parameter values (log 1) and the environment's free answers (log 3). -/

namespace Sys2Proof

/-- A bus target: the demodulator or the tuner (R63, R92 field TGT). -/
inductive Target where
  | demod
  | tuner
deriving DecidableEq, Repr, Inhabited

/-- The three broadcast systems a request can name (R92 field SYS: 1, 2, 3). -/
inductive System where
  | isdbT
  | isdbS
  | isdbS3
deriving DecidableEq, Repr, Inhabited

/-- A terrestrial channel bandwidth: the values BWSEL takes (R39). -/
inductive Bandwidth where
  | mhz6
  | mhz7
  | mhz8
deriving DecidableEq, Repr, Inhabited

/-- MB_ORDER: the byte order of a multi-byte register field (R64). -/
inductive ByteOrder where
  | be
  | le
deriving DecidableEq, Repr, Inhabited

/-- One value for each broadcast system (AGC_FIELD[s], LOCK_COND[s]). -/
structure PerSystem (α : Type) where
  isdbT : α
  isdbS : α
  isdbS3 : α
deriving DecidableEq, Repr, Inhabited

/-- One 16-byte row for each bandwidth (BANDP_TABLE, TUNERBW_TABLE: R231; log 17). -/
structure BandwidthTable where
  mhz6 : Vector Byte 16
  mhz7 : Vector Byte 16
  mhz8 : Vector Byte 16
deriving DecidableEq, Repr, Inhabited

/-- One (code, value) entry of a CNR table: u32 code, i32 value (R165). -/
structure CnrEntry where
  code : Word
  value : Word
deriving DecidableEq, Repr, Inhabited

/-- One segment of a piecewise-linear model, every field an i32 (R170). -/
structure PwlSegment where
  lo : Word
  hi : Word
  num : Word
  den : Word
  ic : Word
deriving DecidableEq, Repr, Inhabited

/-- One entry of RSSI_T_RANGES: a half-open frequency range in kHz and its PWL model id (R295). -/
structure RssiRange where
  fLo : Word
  fHi : Word
  model : Byte
deriving DecidableEq, Repr, Inhabited

/-- A register-field descriptor (R67). `bank` is `none` for `banked` false. `len` is 1 to 4 when well formed. -/
structure RegField where
  tgt : Target
  bank : Option Byte
  reg : Byte
  len : Nat
  shift : BitVec 5
  mask : Word
deriving DecidableEq, Repr, Inhabited

/-- A transport-stream clock tuple, one byte a field, in the order of R232. -/
structure TsTuple where
  clockMode : Byte
  dutyMode : Byte
  period : Byte
  ifClockSelect : Byte
deriving DecidableEq, Repr, Inhabited

/-- CNR_S_TABLE_SELECT for one satellite system, as plain data (R300; log 14): the table id is `base`, or the id of the
last listed threshold that the symbol rate reaches. No threshold is the default form, one is the threshold form. -/
structure CnrSelect where
  base : Nat
  thresholds : List (Word × Nat)
deriving DecidableEq, Repr, Inhabited

/-- The 17 sequences of SEQ_ROM, by their names in R106 (ids 0 to 16 in this order). -/
inductive SeqId where
  | demodInit
  | tunerColdboot
  | s2aT
  | s2aS
  | s2aS3
  | sameT
  | sameS
  | sameS3
  | a2sT
  | a2sS
  | a2sS3
  | tunerReset
  | tunerLoadTerr
  | tunerLoadSat
  | tunerFreqTerr
  | tunerFreqSatLo
  | tunerFreqSatHi
deriving DecidableEq, Repr, Inhabited

/-- SEQ_ROM: one list of 64-bit entries for each sequence of R106. -/
structure SeqRom where
  demodInit : List RomWord
  tunerColdboot : List RomWord
  s2aT : List RomWord
  s2aS : List RomWord
  s2aS3 : List RomWord
  sameT : List RomWord
  sameS : List RomWord
  sameS3 : List RomWord
  a2sT : List RomWord
  a2sS : List RomWord
  a2sS3 : List RomWord
  tunerReset : List RomWord
  tunerLoadTerr : List RomWord
  tunerLoadSat : List RomWord
  tunerFreqTerr : List RomWord
  tunerFreqSatLo : List RomWord
  tunerFreqSatHi : List RomWord
deriving DecidableEq, Repr, Inhabited

/-- The configuration of a block instance (R6): fixed for the instance's lifetime. The parameters that R6 derives or decides,
and I44 does not name, are constants of Machine/Tables.lean instead (log 15). -/
structure Config where
  bankSelectReg : Byte
  s3HighPathThresholdKhz : Word
  tFreqBits : Nat
  demodAddr : BusAddr
  tunerAddr : BusAddr
  mbOrder : ByteOrder
  log2FracTable : Vector Byte 32
  cnrTables : List (List CnrEntry)
  pwlModels : List (List PwlSegment)
  rssiTScale : Word
  rssiTCal : Word
  rssiTRanges : List RssiRange
  rssiSDiv : Word
  rssiSOffset : Word
  cnrTMul : Word
  cnrTOff : Word
  cnrRelLo : Word
  cnrRelHi : Word
  cnrSelectS : CnrSelect
  cnrSelectS3 : CnrSelect
  symrateField : Option RegField
  lockCond : PerSystem (List (RegField × Word))
  agcField : PerSystem RegField
  snrFieldT : RegField
  cnrFieldS : RegField
  cnrFieldS3 : RegField
  errcntField : RegField
  wincntField : RegField
  seqRom : SeqRom
  bandpTable : BandwidthTable
  tunerbwTable : BandwidthTable
  tsclkTable : List TsTuple
  s3StreamIdA : Word
  s3StreamIdB : Word
  hookIds : List (Byte × String)
deriving DecidableEq, Repr, Inhabited

/-- What the environment answers to a bus or repeater primitive (R20): failure, or success with the four bytes it would
put on the bus. A write or repeater call uses no byte, a read of n bytes the first n (log 4). -/
inductive Answer where
  | err
  | ok (b0 b1 b2 b3 : Byte)
deriving DecidableEq, Repr, Inhabited

/-- The values of the OPEN parameters of R6: no source gives any, so nothing is known of this constant (log 1). -/
opaque Config.openValues : Config

/-- The free answers of the environment (I34: any value): the n-th draw for which no answer is listed (log 3). -/
opaque Config.freeAnswer : Nat → Answer

end Sys2Proof
end

