-- ==== Sys2Proof/Machine/Tables.lean ====
section
/-! DEFINITION. How the configuration is indexed (R105, R106, R200, R300), the parameters that are constants of the model
(log 15), and the default values of the others (R6, R64, R151, R300). -/

namespace Sys2Proof

/-- The value of the system `sy`. -/
def PerSystem.get {α : Type} (p : PerSystem α) : System → α
  | .isdbT => p.isdbT
  | .isdbS => p.isdbS
  | .isdbS3 => p.isdbS3

/-- The row of the bandwidth. -/
def BandwidthTable.row (t : BandwidthTable) : Bandwidth → Vector Byte 16
  | .mhz6 => t.mhz6
  | .mhz7 => t.mhz7
  | .mhz8 => t.mhz8

/-- The bus address of a target (R130, R200 `addr`). -/
def Config.addr (c : Config) : Target → BusAddr
  | .demod => c.demodAddr
  | .tuner => c.tunerAddr

/-- The entries of one sequence. -/
def SeqRom.entries (r : SeqRom) : SeqId → List RomWord
  | .demodInit => r.demodInit
  | .tunerColdboot => r.tunerColdboot
  | .s2aT => r.s2aT
  | .s2aS => r.s2aS
  | .s2aS3 => r.s2aS3
  | .sameT => r.sameT
  | .sameS => r.sameS
  | .sameS3 => r.sameS3
  | .a2sT => r.a2sT
  | .a2sS => r.a2sS
  | .a2sS3 => r.a2sS3
  | .tunerReset => r.tunerReset
  | .tunerLoadTerr => r.tunerLoadTerr
  | .tunerLoadSat => r.tunerLoadSat
  | .tunerFreqTerr => r.tunerFreqTerr
  | .tunerFreqSatLo => r.tunerFreqSatLo
  | .tunerFreqSatHi => r.tunerFreqSatHi

/-- The same ROM with the entries of one sequence replaced. -/
def SeqRom.withEntries (r : SeqRom) (es : List RomWord) : SeqId → SeqRom
  | .demodInit => { r with demodInit := es }
  | .tunerColdboot => { r with tunerColdboot := es }
  | .s2aT => { r with s2aT := es }
  | .s2aS => { r with s2aS := es }
  | .s2aS3 => { r with s2aS3 := es }
  | .sameT => { r with sameT := es }
  | .sameS => { r with sameS := es }
  | .sameS3 => { r with sameS3 := es }
  | .a2sT => { r with a2sT := es }
  | .a2sS => { r with a2sS := es }
  | .a2sS3 => { r with a2sS3 := es }
  | .tunerReset => { r with tunerReset := es }
  | .tunerLoadTerr => { r with tunerLoadTerr := es }
  | .tunerLoadSat => { r with tunerLoadSat := es }
  | .tunerFreqTerr => { r with tunerFreqTerr := es }
  | .tunerFreqSatLo => { r with tunerFreqSatLo := es }
  | .tunerFreqSatHi => { r with tunerFreqSatHi := es }

/-- The target of a sequence's entries (R106 third column, R201 item 7). -/
def SeqId.target : SeqId → Target
  | .tunerColdboot | .tunerReset | .tunerLoadTerr | .tunerLoadSat | .tunerFreqTerr | .tunerFreqSatLo
  | .tunerFreqSatHi => .tuner
  | .demodInit | .s2aT | .s2aS | .s2aS3 | .sameT | .sameS | .sameS3 | .a2sT | .a2sS | .a2sS3 => .demod

/-- Every sequence id, 0 to 16 in R106's order. -/
def SeqId.all : List SeqId :=
  [.demodInit, .tunerColdboot, .s2aT, .s2aS, .s2aS3, .sameT, .sameS, .sameS3, .a2sT, .a2sS, .a2sS3,
   .tunerReset, .tunerLoadTerr, .tunerLoadSat, .tunerFreqTerr, .tunerFreqSatLo, .tunerFreqSatHi]

/-- The id a CNR_S_TABLE_SELECT chooses at a symbol rate (R300; log 14): that of the last listed threshold reached, else the
base. -/
def CnrSelect.tableId (sel : CnrSelect) (sr : Word) : Nat :=
  sel.thresholds.foldl (fun id p => if p.1.toNat ≤ sr.toNat then p.2 else id) sel.base

/-- Did the environment answer `ok`? -/
def Answer.isOk : Answer → Bool
  | .ok _ _ _ _ => true
  | .err => false

/-- The directory number of a sequence (R106). -/
def SeqId.number : SeqId → Nat
  | .demodInit => 0
  | .tunerColdboot => 1
  | .s2aT => 2
  | .s2aS => 3
  | .s2aS3 => 4
  | .sameT => 5
  | .sameS => 6
  | .sameS3 => 7
  | .a2sT => 8
  | .a2sS => 9
  | .a2sS3 => 10
  | .tunerReset => 11
  | .tunerLoadTerr => 12
  | .tunerLoadSat => 13
  | .tunerFreqTerr => 14
  | .tunerFreqSatLo => 15
  | .tunerFreqSatHi => 16

/-- MAX_BIT_PRECISION (R7). -/
def maxBitPrecision : Nat := 5

/-- LOG2_10_SCALED (R8). -/
def log2Of10Scaled : Nat := 332

/-- SAT_WORD_BITS (R6, R257). -/
def satWordBits : Nat := 24

/-- One of the two stages of PER_SCALE (R6, R175). -/
def perStage : Nat := 1000

/-- The default LOG2_FRAC_TABLE, value by value from R151. -/
def defaultLog2FracTable : Vector Byte 32 :=
  #v[0, 4, 9, 13, 17, 21, 25, 29, 32, 36, 39, 43, 46, 49, 52, 55,
     58, 61, 64, 67, 70, 73, 75, 78, 81, 83, 86, 88, 91, 93, 95, 98]

/-- The default CNR_S_TABLE_SELECT of R300 for IsdbS: table 0 at every symbol rate. -/
def defaultCnrSelectS : CnrSelect := { base := 0, thresholds := [] }

/-- The default CNR_S_TABLE_SELECT of R300 for IsdbS3: table 1 at every symbol rate. -/
def defaultCnrSelectS3 : CnrSelect := { base := 1, thresholds := [] }

/-- The configuration with every parameter that has a default at that default (R6, R64, R151, R300). -/
def Config.withDefaults (c : Config) : Config :=
  { c with
    bankSelectReg := 0x00
    s3HighPathThresholdKhz := 2150000
    tFreqBits := 20
    mbOrder := .be
    log2FracTable := defaultLog2FracTable
    cnrSelectS := defaultCnrSelectS
    cnrSelectS3 := defaultCnrSelectS3 }

end Sys2Proof
end

