-- ==== Sys2Proof/Syntax.lean ====
section
/-! DEFINITION. The instructions: one constructor for each row of spec/opcode_table.json, the 17 commands of R100 and
the 7 register-sequence ROM entry kinds of R104. -/

namespace Sys2Proof

/-- Where a ROM entry's access goes (R103): `bank` is `some b` for B = 1 with BANK = b, and `none` for B = 0, where BANK
must be 0 (R104). -/
structure Access where
  bank : Option Byte
  tgt : Target
  reg : Byte
  mask : Byte
deriving DecidableEq, Repr, Inhabited

/-- The byte a WRV entry writes, by its source code (R105). -/
inductive Source where
  | freqw0
  | freqw1
  | freqw2
  | bandp (k : BitVec 4)
  | tunerbw (k : BitVec 4)
  | clockMode
  | dutyMode
  | period
  | ifClockSelect
deriving DecidableEq, Repr, Inhabited

/-- The instructions of TSQE command set v1 (R100) and of the register-sequence ROM (R104). -/
inductive Instr where
  /-- LOG2 (R150) -/
  | log2 (x : Word)
  /-- LOG10 (R155) -/
  | log10 (x : Word)
  /-- SEXT (R160): width field W, value V -/
  | sext (w : BitVec 6) (v : Word)
  /-- TLOOKUP (R165): table ID, query code -/
  | tlookup (id : Byte) (q : Word)
  /-- PWL (R170): model ID, value -/
  | pwl (id : Byte) (v : Word)
  /-- PERCALC (R175): error count, window count -/
  | percalc (e w : Word)
  /-- RSSI_T (R295): AGC, frequency in kHz -/
  | rssiT (agc f : Word)
  /-- RSSI_S (R296): AGC -/
  | rssiS (agc : Word)
  /-- CNR_T (R297): raw SNR -/
  | cnrT (snr : Word)
  /-- CNR_S (R299): SYS field, code, symbol rate -/
  | cnrS (sys : BitVec 3) (code symrate : Word)
  /-- SETBITS (R130); BANK is 0 (R101 item 4) -/
  | setBits (tgt : Target) (reg val mask : Byte)
  /-- SETBANKEDBITS (R131) -/
  | setBankedBits (tgt : Target) (bank reg val mask : Byte)
  /-- INIT (R250) -/
  | init
  /-- SLEEP (R252) -/
  | sleep
  /-- SET_FRONTEND (R255): SYS field, BW in MHz, FREQ in kHz, SID -/
  | setFrontend (sys : BitVec 3) (bw : BitVec 4) (freq sid : Word)
  /-- READ_STATUS (R290) -/
  | readStatus
  /-- GET_STATE (R262) -/
  | getState
  /-- END (R202) -/
  | endSeq
  /-- WR (R203): masked write of a constant -/
  | wr (a : Access) (val : Byte)
  /-- WRV (R205): masked write of a computed byte -/
  | wrv (a : Access) (src : Source)
  /-- DELAY (R206): milliseconds -/
  | delay (ms : BitVec 16)
  /-- POLLZ (R208) -/
  | pollz (a : Access)
  /-- RDSEL (R207) -/
  | rdsel (a : Access)
  /-- HOOK (R209): hook id, select value -/
  | hook (id val : Byte)
deriving DecidableEq, Repr, Inhabited

/-- Is this one of the 17 commands of the command port, rather than a ROM entry? -/
def Instr.isCommand : Instr → Bool
  | .log2 _ | .log10 _ | .sext _ _ | .tlookup _ _ | .pwl _ _ | .percalc _ _ | .rssiT _ _ | .rssiS _ | .cnrT _
  | .cnrS _ _ _ | .setBits _ _ _ _ | .setBankedBits _ _ _ _ _ | .init | .sleep | .setFrontend _ _ _ _
  | .readStatus | .getState => true
  | .endSeq | .wr _ _ | .wrv _ _ | .delay _ | .pollz _ | .rdsel _ | .hook _ _ => false

end Sys2Proof
end

