-- ==== Sys2Proof/WellFormed.lean ====
section
/-! DEFINITION. Well-formedness: what the spec refuses. Of an instruction, what the constructors' types do not already
exclude (R101 items 5 to 7, R201 items 5 to 8); of the configuration's tables and fields (R166, R171, R295, R298, R300,
R67, R294). SEQ_ROM's own condition, which decodes entries, stands in Machine/Configuration.lean with `configWf`. -/

namespace Sys2Proof

/-- What R101 item 7 and R201 item 5 ask of an instruction, whatever the configuration. -/
def Instr.wf : Instr → Bool
  | .cnrS sys _ _ => sys == 2 || sys == 3
  | .rdsel a => a.mask != 0
  | .log2 _ | .log10 _ | .sext _ _ | .tlookup _ _ | .pwl _ _ | .percalc _ _ | .rssiT _ _ | .rssiS _ | .cnrT _
  | .setBits _ _ _ _ | .setBankedBits _ _ _ _ _ | .init | .sleep | .setFrontend _ _ _ _
  | .readStatus | .getState | .endSeq | .wr _ _ | .wrv _ _ | .delay _ | .pollz _ | .hook _ _ => true

/-- What R101 items 5 and 6 ask besides: the ID names a table or model of the configuration. -/
def Instr.wfIn (c : Config) (i : Instr) : Bool :=
  i.wf && match i with
  | .tlookup id _ => id.toNat < c.cnrTables.length
  | .pwl id _ => id.toNat < c.pwlModels.length
  | .log2 _ | .log10 _ | .sext _ _ | .percalc _ _ | .rssiT _ _ | .rssiS _ | .cnrT _ | .cnrS _ _ _
  | .setBits _ _ _ _ | .setBankedBits _ _ _ _ _ | .init | .sleep | .setFrontend _ _ _ _
  | .readStatus | .getState | .endSeq | .wr _ _ | .wrv _ _ | .delay _ | .pollz _ | .rdsel _ | .hook _ _ => true

/-- May an RDSEL stand in this sequence? Only in ids 2 to 7 (R201 item 6). -/
def SeqId.mayRdsel : SeqId → Bool
  | .s2aT | .s2aS | .s2aS3 | .sameT | .sameS | .sameS3 => true
  | .demodInit | .tunerColdboot | .a2sT | .a2sS | .a2sS3 | .tunerReset | .tunerLoadTerr | .tunerLoadSat
  | .tunerFreqTerr | .tunerFreqSatLo | .tunerFreqSatHi => false

/-- May this entry stand in sequence `id` (R201 items 5 to 7)? Item 7 asks for the sequence's target of every entry that
has a target (log 21). No command is a ROM entry. -/
def Instr.allowedIn (id : SeqId) (i : Instr) : Bool :=
  i.wf && match i with
  | .endSeq | .delay _ | .hook _ _ => true
  | .wr a _ | .wrv a _ => a.tgt == id.target
  | .pollz a => a.tgt == id.target && id == .tunerColdboot
  | .rdsel a => a.tgt == id.target && id.mayRdsel
  | .log2 _ | .log10 _ | .sext _ _ | .tlookup _ _ | .pwl _ _ | .percalc _ _ | .rssiT _ _ | .rssiS _ | .cnrT _
  | .cnrS _ _ _ | .setBits _ _ _ _ | .setBankedBits _ _ _ _ _ | .init | .sleep | .setFrontend _ _ _ _
  | .readStatus | .getState => false

/-- Codes strictly decreasing (R166). -/
def codesDecrease : List CnrEntry → Bool
  | [] => true
  | [_] => true
  | a :: b :: rest => b.code.toNat < a.code.toNat && codesDecrease (b :: rest)

/-- R166: at least one entry, codes strictly decreasing. -/
def cnrTableWf (t : List CnrEntry) : Bool := !t.isEmpty && codesDecrease t

/-- R171: lo < hi and den ≠ 0. -/
def PwlSegment.wf (g : PwlSegment) : Bool := decide (g.lo.toInt < g.hi.toInt) && g.den != 0

/-- R171: at least one segment, every segment well formed. -/
def pwlModelWf (m : List PwlSegment) : Bool := !m.isEmpty && m.all PwlSegment.wf

/-- R295: fLo < fHi, and the model exists. -/
def RssiRange.wf (nModels : Nat) (r : RssiRange) : Bool :=
  decide (r.fLo.toNat < r.fHi.toNat) && decide (r.model.toNat < nModels)

/-- R67: len is 1 to 4 and the field does not run past register 0xFF. -/
def RegField.wf (f : RegField) : Bool :=
  decide (1 ≤ f.len) && decide (f.len ≤ 4) && decide (f.reg.toNat + f.len ≤ 0x100)

/-- R67, R294: a status field is well formed and has the demodulator as its target. -/
def RegField.statusWf (f : RegField) : Bool := f.wf && f.tgt == .demod

/-- R300: every table id the selection can return exists. It returns what it returns at rate 0 and at each threshold, and
nothing else (`CnrSelect.wf_iff` of Laws/Metrics.lean), so an id that it names and never returns is not asked about. -/
def CnrSelect.wf (nTables : Nat) (c : CnrSelect) : Bool :=
  decide (c.tableId 0 < nTables) && c.thresholds.all fun p => decide (c.tableId p.1 < nTables)

/-- The fields READ_STATUS may read (R294). -/
def Config.statusFields (c : Config) : List RegField :=
  [c.agcField.isdbT, c.agcField.isdbS, c.agcField.isdbS3, c.snrFieldT, c.cnrFieldS, c.cnrFieldS3,
   c.errcntField, c.wincntField]
  ++ c.symrateField.toList
  ++ (c.lockCond.isdbT ++ c.lockCond.isdbS ++ c.lockCond.isdbS3).map Prod.fst

/-- The well-formedness of everything but SEQ_ROM. Entry 0 of LOG2_FRAC_TABLE must be 0 (R151; log 16). -/
def Config.tablesWf (c : Config) : Bool :=
  c.log2FracTable[0] == 0
  && decide (2 ≤ c.cnrTables.length) && c.cnrTables.all cnrTableWf
  && c.pwlModels.all pwlModelWf
  && !c.rssiTRanges.isEmpty && c.rssiTRanges.all (RssiRange.wf c.pwlModels.length)
  && c.rssiSDiv != 0
  && decide (c.cnrRelLo.toInt < c.cnrRelHi.toInt)
  && c.cnrSelectS.wf c.cnrTables.length && c.cnrSelectS3.wf c.cnrTables.length
  && c.statusFields.all RegField.statusWf

end Sys2Proof
end

