-- ==== Sys2Proof/Decode.lean ====
section
/-! DEFINITION. The decoder of command words (R91 to R93, R100, R101) and of ROM entries (R103 to R105), total and
rejecting by name, and the encoder beside it. Command words and ROM entries are whole values with no byte order (R64). -/

namespace Sys2Proof

/-- Why a command or ROM entry does not decode. -/
inductive DecodeError where
  /-- OPC is not in R100's map (R101 item 1) -/
  | unassignedOpcode
  /-- a "must be 0" field of the command's format is not 0 (R101 item 2) -/
  | reservedField
  /-- the number of operand words is not the format's (R101 item 3) -/
  | operandCount
  /-- SETBITS with BANK ≠ 0 (R101 item 4) -/
  | setBitsBank
  /-- a ROM entry of KIND 0x7 to 0xF (R104) -/
  | reservedKind
  /-- a reserved field of a ROM entry is not 0 (R103) -/
  | reservedEntryField
  /-- a field the entry's kind does not use is not 0 (R104) -/
  | unusedEntryField
  /-- a WRV source code that R105 does not list -/
  | unknownSource
deriving DecidableEq, Repr

/-- The words of an instruction: a command word with its operand words (R90), or one ROM entry (R103). -/
inductive Encoding where
  | command (w0 : Word) (ops : List Word)
  | romEntry (e : RomWord)
deriving DecidableEq, Repr

/-- TGT: 0 is the demodulator, 1 the tuner (R92, R103). -/
def Target.ofBit (b : BitVec 1) : Target := if b = 0 then .demod else .tuner

/-- The TGT bit of a target. -/
def Target.bit : Target → BitVec 1
  | .demod => 0
  | .tuner => 1

/-! ### Command formats (R92). `low` is W0[23:0]. -/

/-- Format CN: [23:0] must be 0, no operand word. -/
def parseCN (low : BitVec 24) (ops : List Word) (i : Instr) : Except DecodeError Instr :=
  if low ≠ 0 then .error .reservedField else
  match ops with
  | [] => .ok i
  | _ => .error .operandCount

/-- Format CX: [23:0] must be 0, OPS = [X]. -/
def parseCX (low : BitVec 24) (ops : List Word) (mk : Word → Instr) : Except DecodeError Instr :=
  if low ≠ 0 then .error .reservedField else
  match ops with
  | [x] => .ok (mk x)
  | _ => .error .operandCount

/-- Format CW: [23:6] must be 0, [5:0] = W, OPS = [V]. -/
def parseCW (low : BitVec 24) (ops : List Word) (mk : BitVec 6 → Word → Instr) : Except DecodeError Instr :=
  if low.extractLsb' 6 18 ≠ 0 then .error .reservedField else
  match ops with
  | [v] => .ok (mk (low.extractLsb' 0 6) v)
  | _ => .error .operandCount

/-- Format CI: [23:8] must be 0, [7:0] = ID, OPS = [V]. -/
def parseCI (low : BitVec 24) (ops : List Word) (mk : Byte → Word → Instr) : Except DecodeError Instr :=
  if low.extractLsb' 8 16 ≠ 0 then .error .reservedField else
  match ops with
  | [v] => .ok (mk (low.extractLsb' 0 8) v)
  | _ => .error .operandCount

/-- Format CXX: [23:0] must be 0, OPS = [A, B]. -/
def parseCXX (low : BitVec 24) (ops : List Word) (mk : Word → Word → Instr) : Except DecodeError Instr :=
  if low ≠ 0 then .error .reservedField else
  match ops with
  | [a, b] => .ok (mk a b)
  | _ => .error .operandCount

/-- Format CR: [23:1] must be 0, [0] = TGT, OPS = [(BANK, REG, VAL, MASK)] from the high byte down. `mk` may refuse. -/
def parseCR (low : BitVec 24) (ops : List Word)
    (mk : Target → Byte → Byte → Byte → Byte → Except DecodeError Instr) : Except DecodeError Instr :=
  if low.extractLsb' 1 23 ≠ 0 then .error .reservedField else
  match ops with
  | [w] => mk (.ofBit (low.extractLsb' 0 1)) (w.extractLsb' 24 8) (w.extractLsb' 16 8) (w.extractLsb' 8 8)
      (w.extractLsb' 0 8)
  | _ => .error .operandCount

/-- Format CS: [23:3] must be 0, [2:0] = SYS, OPS = [CODE, SYMRATE]. -/
def parseCS (low : BitVec 24) (ops : List Word) (mk : BitVec 3 → Word → Word → Instr) : Except DecodeError Instr :=
  if low.extractLsb' 3 21 ≠ 0 then .error .reservedField else
  match ops with
  | [c, r] => .ok (mk (low.extractLsb' 0 3) c r)
  | _ => .error .operandCount

/-- Format CF: [23:12] must be 0, [11:8] = BW, [7:3] must be 0, [2:0] = SYS, OPS = [FREQ, SID]. -/
def parseCF (low : BitVec 24) (ops : List Word) (mk : BitVec 3 → BitVec 4 → Word → Word → Instr) :
    Except DecodeError Instr :=
  if low.extractLsb' 12 12 ≠ 0 ∨ low.extractLsb' 3 5 ≠ 0 then .error .reservedField else
  match ops with
  | [f, sid] => .ok (mk (low.extractLsb' 0 3) (low.extractLsb' 8 4) f sid)
  | _ => .error .operandCount

/-- SETBITS refuses BANK ≠ 0 (R101 item 4). -/
def mkSetBits (tgt : Target) (bank reg val mask : Byte) : Except DecodeError Instr :=
  if bank ≠ 0 then .error .setBitsBank else .ok (.setBits tgt reg val mask)

/-- A command from its opcode and W0[23:0]: the opcode map of R100. -/
def decodeOpcode (opc : Byte) (low : BitVec 24) (ops : List Word) : Except DecodeError Instr :=
  match opc.toNat with
  | 0x01 => parseCX low ops .log2
  | 0x02 => parseCX low ops .log10
  | 0x03 => parseCW low ops .sext
  | 0x04 => parseCI low ops .tlookup
  | 0x05 => parseCI low ops .pwl
  | 0x06 => parseCXX low ops .percalc
  | 0x07 => parseCXX low ops .rssiT
  | 0x08 => parseCX low ops .rssiS
  | 0x09 => parseCX low ops .cnrT
  | 0x0A => parseCS low ops .cnrS
  | 0x10 => parseCR low ops mkSetBits
  | 0x11 => parseCR low ops fun tgt bank reg val mask => .ok (.setBankedBits tgt bank reg val mask)
  | 0x20 => parseCN low ops .init
  | 0x21 => parseCN low ops .sleep
  | 0x22 => parseCF low ops .setFrontend
  | 0x23 => parseCN low ops .readStatus
  | 0x24 => parseCN low ops .getState
  | _ => .error .unassignedOpcode

/-- A command from its words (R91): OPC is W0[31:24]. The causes of R101 that depend on the configuration (items 5, 6),
and item 7, are judged by the command's meaning (log 8). -/
def decodeCommand (w0 : Word) (ops : List Word) : Except DecodeError Instr :=
  decodeOpcode (w0.extractLsb' 24 8) (w0.extractLsb' 0 24) ops

/-- How many operand words an opcode's format has (R92, R93: a decoder finds the length from OPC alone). -/
def operandCount (opc : Byte) : Nat :=
  match opc.toNat with
  | 0x01 | 0x02 | 0x03 | 0x04 | 0x05 | 0x08 | 0x09 | 0x10 | 0x11 => 1
  | 0x06 | 0x07 | 0x0A | 0x22 => 2
  | _ => 0

/-! ### ROM entries (R103 to R105) -/

/-- The fields of a ROM entry, from the high bits down (R103). -/
structure EntryFields where
  kind : BitVec 4
  reservedHi : BitVec 2
  b : BitVec 1
  tgt : BitVec 1
  bank : Byte
  reg : Byte
  val : Byte
  mask : Byte
  reservedLo : Byte
  arg : BitVec 16
deriving DecidableEq, Repr

/-- The fields of a 64-bit entry (R103). -/
def EntryFields.ofWord (e : RomWord) : EntryFields where
  kind := e.extractLsb' 60 4
  reservedHi := e.extractLsb' 58 2
  b := e.extractLsb' 57 1
  tgt := e.extractLsb' 56 1
  bank := e.extractLsb' 48 8
  reg := e.extractLsb' 40 8
  val := e.extractLsb' 32 8
  mask := e.extractLsb' 24 8
  reservedLo := e.extractLsb' 16 8
  arg := e.extractLsb' 0 16

/-- The entry with these fields (R103). -/
def EntryFields.toWord (f : EntryFields) : RomWord :=
  f.kind ++ f.reservedHi ++ f.b ++ f.tgt ++ f.bank ++ f.reg ++ f.val ++ f.mask ++ f.reservedLo ++ f.arg

/-- The WRV source of a code (R105). -/
def Source.ofCode (c : Byte) : Option Source :=
  let k : BitVec 4 := c.extractLsb' 0 4
  match (c.extractLsb' 4 4).toNat with
  | 0x0 => match k.toNat with
    | 0 => some .freqw0
    | 1 => some .freqw1
    | 2 => some .freqw2
    | _ => none
  | 0x1 => some (.bandp k)
  | 0x2 => some (.tunerbw k)
  | 0x3 => match k.toNat with
    | 0 => some .clockMode
    | 1 => some .dutyMode
    | 2 => some .period
    | 3 => some .ifClockSelect
    | _ => none
  | _ => none

/-- The code of a WRV source (R105). -/
def Source.code : Source → Byte
  | .freqw0 => 0x00
  | .freqw1 => 0x01
  | .freqw2 => 0x02
  | .bandp k => (0x1 : BitVec 4) ++ k
  | .tunerbw k => (0x2 : BitVec 4) ++ k
  | .clockMode => 0x30
  | .dutyMode => 0x31
  | .period => 0x32
  | .ifClockSelect => 0x33

/-- The access of an entry: with B = 0, BANK is an unused field and must be 0 (R104). -/
def EntryFields.access (f : EntryFields) : Except DecodeError Access :=
  if f.b = 0 then
    if f.bank ≠ 0 then .error .unusedEntryField
    else .ok { bank := none, tgt := .ofBit f.tgt, reg := f.reg, mask := f.mask }
  else .ok { bank := some f.bank, tgt := .ofBit f.tgt, reg := f.reg, mask := f.mask }

/-- Are the access fields B, TGT, BANK and REG all 0, as a kind that uses none of them needs (R104)? -/
def EntryFields.noAccess (f : EntryFields) : Bool := f.b == 0 && f.tgt == 0 && f.bank == 0 && f.reg == 0

/-- An entry by its KIND (R104). -/
def EntryFields.decode (f : EntryFields) : Except DecodeError Instr :=
  if f.reservedHi ≠ 0 ∨ f.reservedLo ≠ 0 then .error .reservedEntryField else
  match f.kind.toNat with
  | 0x0 =>
    if f.noAccess && f.val == 0 && f.mask == 0 && f.arg == 0 then .ok .endSeq else .error .unusedEntryField
  | 0x1 =>
    if f.arg ≠ 0 then .error .unusedEntryField else f.access.map fun a => .wr a f.val
  | 0x2 =>
    if f.val ≠ 0 ∨ f.arg.extractLsb' 8 8 ≠ 0 then .error .unusedEntryField else
    match Source.ofCode (f.arg.extractLsb' 0 8) with
    | none => .error .unknownSource
    | some src => f.access.map fun a => .wrv a src
  | 0x3 =>
    if f.noAccess && f.val == 0 && f.mask == 0 then .ok (.delay f.arg) else .error .unusedEntryField
  | 0x4 =>
    if f.val ≠ 0 ∨ f.arg ≠ 0 then .error .unusedEntryField else f.access.map .pollz
  | 0x5 =>
    if f.val ≠ 0 ∨ f.arg ≠ 0 then .error .unusedEntryField else f.access.map .rdsel
  | 0x6 =>
    if f.noAccess && f.mask == 0 && f.arg.extractLsb' 8 8 == 0 then .ok (.hook (f.arg.extractLsb' 0 8) f.val)
    else .error .unusedEntryField
  | _ => .error .reservedKind

/-- A ROM entry from its 64 bits. -/
def decodeEntry (e : RomWord) : Except DecodeError Instr := (EntryFields.ofWord e).decode

/-- An instruction from its words. -/
def decode : Encoding → Except DecodeError Instr
  | .command w0 ops => decodeCommand w0 ops
  | .romEntry e => decodeEntry e

/-- The words of an instruction whose low `nbits` bits are `w` and whose further bits are 0, numbered as
spec/opcode_table.json numbers them. A 64-bit row is a ROM entry, every other row a command: W0, then as many operand
words as its opcode takes. -/
def tableEncoding (nbits w : Nat) : Encoding :=
  if nbits = 64 then .romEntry (BitVec.ofNat 64 w)
  else
    let w0 : Word := BitVec.ofNat 32 w
    .command w0 ((List.range (operandCount (w0.extractLsb' 24 8))).map fun k => BitVec.ofNat 32 (w >>> (32 * (k + 1))))

/-- The instruction the decoder reads from `tableEncoding nbits w`. -/
def decodeTableWord (nbits w : Nat) : Option Instr := (decode (tableEncoding nbits w)).toOption

/-! ### The encoder -/

/-- A command word from its opcode and W0[23:0] (R91). -/
def commandWord (opc : Byte) (low : BitVec 24) : Word := opc ++ low

/-- The operand word of format CR (R92). -/
def crOperand (bank reg val mask : Byte) : Word := bank ++ reg ++ val ++ mask

/-- The fields of an entry that makes an access; BANK is 0 when unbanked (R104). -/
def Access.fields (a : Access) (kind : BitVec 4) (val : Byte) (arg : BitVec 16) : EntryFields where
  kind := kind
  reservedHi := 0
  b := if a.bank.isSome then 1 else 0
  tgt := a.tgt.bit
  bank := a.bank.getD 0
  reg := a.reg
  val := val
  mask := a.mask
  reservedLo := 0
  arg := arg

/-- The fields of an entry that makes no access. -/
def plainFields (kind : BitVec 4) (val : Byte) (arg : BitVec 16) : EntryFields where
  kind := kind
  reservedHi := 0
  b := 0
  tgt := 0
  bank := 0
  reg := 0
  val := val
  mask := 0
  reservedLo := 0
  arg := arg

/-- The words of an instruction, from the encoding tables of R92, R100 and R103 to R105. -/
def encode : Instr → Encoding
  | .log2 x => .command (commandWord 0x01 0) [x]
  | .log10 x => .command (commandWord 0x02 0) [x]
  | .sext w v => .command (commandWord 0x03 ((0 : BitVec 18) ++ w)) [v]
  | .tlookup id q => .command (commandWord 0x04 ((0 : BitVec 16) ++ id)) [q]
  | .pwl id v => .command (commandWord 0x05 ((0 : BitVec 16) ++ id)) [v]
  | .percalc e w => .command (commandWord 0x06 0) [e, w]
  | .rssiT agc f => .command (commandWord 0x07 0) [agc, f]
  | .rssiS agc => .command (commandWord 0x08 0) [agc]
  | .cnrT snr => .command (commandWord 0x09 0) [snr]
  | .cnrS sys code symrate => .command (commandWord 0x0A ((0 : BitVec 21) ++ sys)) [code, symrate]
  | .setBits tgt reg val mask =>
    .command (commandWord 0x10 ((0 : BitVec 23) ++ tgt.bit)) [crOperand 0 reg val mask]
  | .setBankedBits tgt bank reg val mask =>
    .command (commandWord 0x11 ((0 : BitVec 23) ++ tgt.bit)) [crOperand bank reg val mask]
  | .init => .command (commandWord 0x20 0) []
  | .sleep => .command (commandWord 0x21 0) []
  | .setFrontend sys bw freq sid =>
    .command (commandWord 0x22 ((0 : BitVec 12) ++ bw ++ (0 : BitVec 5) ++ sys)) [freq, sid]
  | .readStatus => .command (commandWord 0x23 0) []
  | .getState => .command (commandWord 0x24 0) []
  | .endSeq => .romEntry (plainFields 0x0 0 0).toWord
  | .wr a val => .romEntry (a.fields 0x1 val 0).toWord
  | .wrv a src => .romEntry (a.fields 0x2 0 ((0 : Byte) ++ src.code)).toWord
  | .delay ms => .romEntry (plainFields 0x3 0 ms).toWord
  | .pollz a => .romEntry (a.fields 0x4 0 0).toWord
  | .rdsel a => .romEntry (a.fields 0x5 0 0).toWord
  | .hook id val => .romEntry (plainFields 0x6 val ((0 : Byte) ++ id)).toWord

end Sys2Proof
end

