-- ==== Sys2Proof/Machine/Configuration.lean ====
section
/-! DEFINITION. The configuration's well-formedness as a whole (R338), with SEQ_ROM's (R201), and the configuration a reset
instance is attached with (log 1). -/

namespace Sys2Proof.Machine

/-- `ctz` (R10) by at most `fuel` shifts. -/
def ctzNat : Nat → Nat → Nat
  | 0, _ => 0
  | fuel + 1, m => if m % 2 = 1 then 0 else ctzNat fuel (m / 2) + 1

/-- The number of trailing zero bits of a byte that is not 0 (R10). -/
def ctz (m : Byte) : Nat := ctzNat 8 m.toNat

/-- R201 item 8: every index an RDSEL's masked read can produce names a tuple. -/
def tsTableCovers (c : Config) : Instr → Bool
  | .rdsel a => decide (a.mask.toNat >>> ctz a.mask < c.tsclkTable.length)
  | .log2 _ | .log10 _ | .sext _ _ | .tlookup _ _ | .pwl _ _ | .percalc _ _ | .rssiT _ _ | .rssiS _ | .cnrT _
  | .cnrS _ _ _ | .setBits _ _ _ _ | .setBankedBits _ _ _ _ _ | .init | .sleep | .setFrontend _ _ _ _
  | .readStatus | .getState | .endSeq | .wr _ _ | .wrv _ _ | .delay _ | .pollz _ | .hook _ _ => true

/-- R201 for one sequence: every entry decodes (items 2 to 4) and may stand in this sequence (items 5 to 8); END is the last
entry and no other one (item 1). -/
def sequenceWf (c : Config) (id : SeqId) : List RomWord → Bool
  | [] => false
  | e :: rest =>
    match decodeEntry e with
    | .error _ => false
    | .ok i => i.allowedIn id && tsTableCovers c i && (if i = .endSeq then rest.isEmpty else sequenceWf c id rest)

/-- R201: all 17 sequences. -/
def seqRomWf (c : Config) : Bool := SeqId.all.all fun id => sequenceWf c id (c.seqRom.entries id)

/-- The well-formedness of a configuration as a whole (R338). -/
def configWf (c : Config) : Bool := c.tablesWf && seqRomWf c

end Sys2Proof.Machine

namespace Sys2Proof

/-- A small well-formed configuration: every sequence is one END, every table has one entry. -/
def Config.smallest : Config :=
  let field : RegField := { tgt := .demod, bank := none, reg := 0, len := 1, shift := 0, mask := 0 }
  let row : Vector Byte 16 := .replicate 16 0
  { bankSelectReg := 0x00
    s3HighPathThresholdKhz := 2150000
    tFreqBits := 20
    demodAddr := 0
    tunerAddr := 1
    mbOrder := .be
    log2FracTable := defaultLog2FracTable
    cnrTables := [[{ code := 0, value := 0 }], [{ code := 0, value := 0 }]]
    pwlModels := [[{ lo := 0, hi := 1, num := 0, den := 1, ic := 0 }]]
    rssiTScale := 0
    rssiTCal := 0
    rssiTRanges := [{ fLo := 0, fHi := 1, model := 0 }]
    rssiSDiv := 1
    rssiSOffset := 0
    cnrTMul := 0
    cnrTOff := 0
    cnrRelLo := 0
    cnrRelHi := 1
    cnrSelectS := defaultCnrSelectS
    cnrSelectS3 := defaultCnrSelectS3
    symrateField := none
    lockCond := { isdbT := [], isdbS := [], isdbS3 := [] }
    agcField := { isdbT := field, isdbS := field, isdbS3 := field }
    snrFieldT := field
    cnrFieldS := field
    cnrFieldS3 := field
    errcntField := field
    wincntField := field
    seqRom := {
      demodInit := [0], tunerColdboot := [0], s2aT := [0], s2aS := [0], s2aS3 := [0], sameT := [0], sameS := [0]
      sameS3 := [0], a2sT := [0], a2sS := [0], a2sS3 := [0], tunerReset := [0], tunerLoadTerr := [0]
      tunerLoadSat := [0], tunerFreqTerr := [0], tunerFreqSatLo := [0], tunerFreqSatHi := [0] }
    bandpTable := { mhz6 := row, mhz7 := row, mhz8 := row }
    tunerbwTable := { mhz6 := row, mhz7 := row, mhz8 := row }
    tsclkTable := []
    s3StreamIdA := 0
    s3StreamIdB := 0
    hookIds := [] }

/-- The configuration of the instance that `State.reset` describes: the defaults R6 gives, and OPEN parameters of which
nothing is known but that R338 accepts the whole. Where the opaque values make no configuration that R338 accepts, the
smallest one stands in for them, and nothing tells whether it does. DESIGN CHOICE (log 1). -/
def Config.attached : Config :=
  (if Machine.configWf Config.openValues.withDefaults then Config.openValues else Config.smallest).withDefaults

end Sys2Proof
end

