-- ==== Sys2Proof/Machine/State.lean ====
section
/-! DEFINITION. The machine's state as plain data: everything spec/10_state.md gives the block (R32 to R39, R45), the
configuration of the instance (R6), the event history (R20), the command port (R90), the bus lock (R348) and the
environment's answers to come (R20). INVENTORY.md lists each field with its rule. -/

namespace Sys2Proof.Machine

/-- DS (R32). -/
inductive DemodState where
  | unknown
  | sleep
  | active
deriving DecidableEq, Repr, Inhabited

/-- SYS (R33). -/
inductive BroadcastSystem where
  | unknown
  | isdbT
  | isdbS
  | isdbS3
deriving DecidableEq, Repr, Inhabited

/-- SUB (R34). -/
inductive SubMode where
  | none
  | terrestrial
  | satellite
deriving DecidableEq, Repr, Inhabited

/-- FAULT_REASON (R337). -/
inductive FaultReason where
  | pwlNoSegment
  | resultRange
  | perDivZero
  | perOverflow
  | rssiFreqNoRange
  | wrvSourceUnset
deriving DecidableEq, Repr, Inhabited

/-- The status codes of R95. -/
inductive Status where
  | ok
  | busError
  | hardwareIoError
  | tunerInitError
  | unsupportedSystem
  | illegalCommand
deriving DecidableEq, Repr, Inhabited

/-- A response: the status word R0 and the result words R1 to Rk (R90, R94). -/
structure Response where
  status : Status
  results : List Word
deriving DecidableEq, Repr, Inhabited

/-- A command as the host delivers it: W0 and its operand words (R90). -/
structure Command where
  w0 : Word
  ops : List Word
deriving DecidableEq, Repr, Inhabited

/-- One external event with the environment's answer to it (R20). A read carries the bytes it returned, or `none` for
`err`; a write or repeater call whether it returned `ok`. -/
inductive Event where
  | busWrite (a : BusAddr) (r : Byte) (bytes : List Byte) (ok : Bool)
  | busRead (a : BusAddr) (r : Byte) (n : Nat) (bytes : Option (List Byte))
  | setRepeater (b : Bool) (ok : Bool)
  | hook (id v : Byte)
  | delay (ms : BitVec 16)
deriving DecidableEq, Repr, Inhabited

/-- The bus lock of the shared context as this instance sees it (R348; log 12). -/
inductive BusLock where
  | free
  /-- held by this instance -/
  | held
  /-- held by another instance of the context -/
  | other
deriving DecidableEq, Repr, Inhabited

/-- The operands of a running SET_FRONTEND after the redirect of R256. `same` is true on R255's case 1, the
same-system path (log 27). -/
structure TuneReq where
  target : System
  bw : BitVec 4
  freq : Word
  same : Bool
deriving DecidableEq, Repr, Inhabited

/-- Where a running command stands: which sequence the sequencer runs, for which command (log 7). What follows the
sequence's END is `afterSequence` of Machine/Control.lean. -/
inductive Phase where
  /-- INIT: RunSeq(0) (R250) -/
  | initDemod
  /-- INIT: RunSeq(1) inside WithRepeater (R225) -/
  | initTuner
  /-- SLEEP: the power-down sequence of the system that was active (R252) -/
  | sleep (old : System)
  /-- SET_FRONTEND case 2: the power-down sequence of the system that was active (R255) -/
  | tuneSleep (old : System) (req : TuneReq)
  /-- SET_FRONTEND case 3: sleep-to-active (R255) -/
  | tuneS2A (req : TuneReq)
  /-- SET_FRONTEND case 1: the same-system sequence (R255) -/
  | tuneSame (req : TuneReq)
  /-- TunerTune: the front-end reset, inside WithRepeater (R221) -/
  | tuneReset (req : TuneReq)
  /-- TunerTune: the sub-mode load, inside WithRepeater (R221) -/
  | tuneLoad (req : TuneReq)
  /-- TunerTune: the frequency sequence, inside WithRepeater (R224) -/
  | tuneFreq (req : TuneReq)
deriving DecidableEq, Repr, Inhabited

/-- The working state of a running command (R39): it exists only while the command runs, so a state between commands
has none (R45). A valid bit of R39 is `isSome` of its field (log 23). -/
structure Run where
  phase : Phase
  /-- the sequencer's entry index (R31) -/
  index : Nat
  /-- FREQW and FREQW_V -/
  freqw : Option (BitVec 24)
  /-- BWSEL and BWSEL_V -/
  bwsel : Option Bandwidth
  /-- TSTUPLE and TSTUPLE_V -/
  tstuple : Option TsTuple
deriving DecidableEq, Repr, Inhabited

/-- The block, its configuration, its ports and the environment's answers to come. -/
structure State where
  /-- the configuration (R6); no step writes it (log 1) -/
  cfg : Config
  /-- DS (R32) -/
  ds : DemodState
  /-- SYS (R33) -/
  sys : BroadcastSystem
  /-- SUB (R34) -/
  sub : SubMode
  /-- REP (R36) -/
  rep : Bool
  /-- TUNED_FREQ (R37) -/
  tunedFreq : Word
  /-- TUNED_BW (R37) -/
  tunedBw : BitVec 4
  /-- TUNED_VALID (R37) -/
  tunedValid : Bool
  /-- FAULT_REASON; FAULTED is that it is set (R38; log 23) -/
  faultReason : Option FaultReason
  /-- the working state of the running command (R39) -/
  run : Option Run
  /-- the bus lock (R348; log 12) -/
  lock : BusLock
  /-- the commands the host has yet to deliver, the next one first (R90; log 5) -/
  port : List Command
  /-- the last response (R90), none since a command was taken that has not responded (log 24) -/
  resp : Option Response
  /-- the environment's answers to come, the next one first (R20; log 3) -/
  env : List Answer
  /-- MODEL: how many answers were free values (log 3) -/
  draws : Nat
  /-- MODEL: the configuration was refused at attach, so that there is no block and no step (R338; log 2) -/
  refused : Bool
  /-- the event history, the oldest first (R20) -/
  history : List Event
deriving DecidableEq, Repr, Inhabited

/-- Why the machine stops. -/
inductive Fault where
  /-- The block is FAULTED: it accepts no command and takes no step (R336 item 3). Raised by `step` and by nothing else,
  with the recorded reason. Safe: the spec gives the block no later behaviour (log 11). -/
  | stuck (reason : FaultReason)
deriving DecidableEq, Repr, Inhabited

/-- Where a configuration that R338 refuses leaves a step without a meaning. -/
inductive ConfigDefect where
  /-- the configuration as a whole, refused before the block exists (R338): `attach`, and any `step` without a block -/
  | refusedAtAttach
  /-- the sequencer ran past a sequence's last entry (R201 item 1) -/
  | sequenceOverrun
  /-- the sequencer met an entry that does not decode (R201 items 2 to 4) -/
  | entryUndecodable
  /-- an RDSEL with MASK 0, or whose index names no tuple (R201 items 5 and 8) -/
  | tsClockIndex
  /-- a CNR table that does not exist or is empty (R166, R300) -/
  | cnrTable
  /-- a PWL model that does not exist, or a segment with den = 0 (R171, R295) -/
  | pwlModel
  /-- RSSI_S_DIV = 0 (R296) -/
  | rssiDivisor
deriving DecidableEq, Repr, Inhabited

/-- Why a step has no meaning to give. -/
inductive Refusal where
  /-- `exec`'s arm has no meaning for the instruction yet. Safe. No arm answers it in this model. -/
  | notModelled (mnemonic : String)
  /-- The configuration is ill formed, so the spec has no such block (R338). Raised by `attach`, by a `step` without a
  block, by the sequencer's fetch, and by RDSEL, TLOOKUP, PWL, RSSI_T, RSSI_S, CNR_S. Safe; no state with a well-formed configuration meets it (log 2). -/
  | illFormedConfig (d : ConfigDefect)
  /-- A ROM entry executed with no sequence running: only RunSeq executes entries (R200). Raised by the seven entries'
  meanings, and by no `step` (log 10). Safe. -/
  | noSequence
  /-- DS = Active with SYS = Unknown, which R43 rules out: no A2S sequence, lock condition or status field is defined for
  it (R230, R292). Raised by SLEEP, SET_FRONTEND and READ_STATUS. Safe (log 9). -/
  | noActiveSystem
deriving DecidableEq, Repr, Inhabited

/-- The fields right after attach with configuration `cfg`: the values of R45, no event (R361), nothing on the ports
(log 13). -/
def State.fresh (cfg : Config) (refused : Bool) : State where
  cfg := cfg
  ds := .unknown
  sys := .unknown
  sub := .none
  rep := false
  tunedFreq := 0
  tunedBw := 0
  tunedValid := false
  faultReason := none
  run := none
  lock := .free
  port := []
  resp := none
  env := []
  draws := 0
  refused := refused
  history := []

/-- The state right after attach with configuration `cfg`. Where R338 refuses it, this state is no block: no step of it has a
meaning. -/
def State.attach (cfg : Config) : State := State.fresh cfg (!configWf cfg)

/-- The machine right after reset (R360): attach with a configuration of which nothing more is known than that it is well
formed (log 1), so it is not refused (`State.reset_eq_attach` of Laws/State.lean). -/
def State.reset : State := State.fresh Config.attached false

/-- FAULTED (R38). -/
def State.faulted (s : State) : Bool := s.faultReason.isSome

end Sys2Proof.Machine
end

