-- ==== Sys2Proof/Machine/Boot.lean ====
section
/-! DEFINITION. Attach, the block's reset (R360, R362): a configuration that R338 refuses gives no block. -/

namespace Sys2Proof.Machine

/-- Boot steps 1 and 2 of R362: a well-formed configuration is attached; any other is refused and no block exists. -/
def attach (c : Config) : Host.Outcome State Fault Refusal :=
  if configWf c then .next (State.attach c) else .refused (.illFormedConfig .refusedAtAttach)

end Sys2Proof.Machine
end

