-- ==== Sys2Proof/Machine/Ops.lean ====
section
/-! DEFINITION. The shared operations: the primitives of R20 with the environment's answers, the response (R94), early
termination (R340), the model fault (R336), setBits and setBankedBits (R130, R131), WithRepeater (R220). -/

namespace Sys2Proof.Machine

/-! ### Outcomes of procedures and computations -/

/-- The outcome of a procedure that calls bus primitives: `ok` with a value, or `err` (R13 `try`), and the state it
leaves. -/
inductive Res (α : Type) where
  | ok (a : α) (s : State)
  | err (s : State)

/-- R13 `try`: go on after success, pass a failure up. -/
def Res.bind {α β : Type} (r : Res α) (f : α → State → Res β) : Res β :=
  match r with
  | .ok a s => f a s
  | .err s => .err s

/-- The state a procedure leaves. -/
def Res.state {α : Type} : Res α → State
  | .ok _ s => s
  | .err s => s

/-- Did the procedure succeed? -/
def Res.isOk {α : Type} : Res α → Bool
  | .ok _ _ => true
  | .err _ => false

/-- The outcome of a pure computation: a value, a model fault (R337), or none because the configuration is one that R338
refuses. -/
inductive Calc (α : Type) where
  | value (a : α)
  | fault (r : FaultReason)
  | illFormed (d : ConfigDefect)
deriving DecidableEq, Repr

/-- Go on with the value. -/
def Calc.bind {α β : Type} (c : Calc α) (f : α → Calc β) : Calc β :=
  match c with
  | .value a => f a
  | .fault r => .fault r
  | .illFormed d => .illFormed d

/-- `avail` of R290: the value, or ⊥ in place of a fault. -/
def Calc.avail {α : Type} : Calc α → Option α
  | .value a => some a
  | .fault _ => none
  | .illFormed _ => none

/-! ### The external primitives (R20) -/

/-- The environment's answer to the next primitive: the next one listed, else a free value (log 3). -/
def State.answer (s : State) : Answer :=
  match s.env with
  | a :: _ => a
  | [] => Config.freeAnswer s.draws

/-- The state once that answer is taken. -/
def State.drawn (s : State) : State :=
  match s.env with
  | _ :: rest => { s with env := rest }
  | [] => { s with draws := s.draws + 1 }

/-- The state with one more event at the end of the history. -/
def State.record (s : State) (e : Event) : State := { s with history := s.history ++ [e] }

/-- The first `n` of the four bytes. -/
def firstBytes (b0 b1 b2 b3 : Byte) (n : Nat) : List Byte := [b0, b1, b2, b3].take n

/-- `BusWrite(a, r, [v])`: every write the block issues is one byte (R66). -/
def busWrite (a : BusAddr) (r v : Byte) (s : State) : Res Unit :=
  match s.answer with
  | .ok _ _ _ _ => .ok () (s.drawn.record (.busWrite a r [v] true))
  | .err => .err (s.drawn.record (.busWrite a r [v] false))

/-- `BusRead(a, r, n)`: one transaction, byte i is register r + i (R64, R66). -/
def busRead (a : BusAddr) (r : Byte) (n : Nat) (s : State) : Res (List Byte) :=
  match s.answer with
  | .ok b0 b1 b2 b3 =>
    .ok (firstBytes b0 b1 b2 b3 n) (s.drawn.record (.busRead a r n (some (firstBytes b0 b1 b2 b3 n))))
  | .err => .err (s.drawn.record (.busRead a r n none))

/-- `BusRead(a, r, 1)[0]`. -/
def readByte (a : BusAddr) (r : Byte) (s : State) : Res Byte :=
  match s.answer with
  | .ok b0 _ _ _ => .ok b0 (s.drawn.record (.busRead a r 1 (some [b0])))
  | .err => .err (s.drawn.record (.busRead a r 1 none))

/-- `SetRepeater(b)`: REP mirrors a call that returns `ok` and no other (R36). -/
def setRepeater (b : Bool) (s : State) : Res Unit :=
  match s.answer with
  | .ok _ _ _ _ => .ok () { s.drawn.record (.setRepeater b true) with rep := b }
  | .err => .err (s.drawn.record (.setRepeater b false))

/-- `Hook(id, v)`: no result is read (R209). -/
def hookOutput (id v : Byte) (s : State) : State := s.record (.hook id v)

/-- `Delay(ms)`: always completes, and has no duration in the model (R77, R206). -/
def delayMs (ms : BitVec 16) (s : State) : State := s.record (.delay ms)

/-! ### Ending a command -/

/-- The response of a command (R90, R94). The command ends: its working state is discarded (R39) and the bus lock is
released (R348). -/
def respond (st : Status) (results : List Word) (s : State) : State :=
  { s with resp := some { status := st, results := results }, run := none, lock := .free }

/-- `raise st` (R12, R330) in a command with `n` result words: every result word is 0 (R94). State fields stay as last
written (R340 item 2). -/
def raiseStatus (st : Status) (n : Nat) (s : State) : State := respond st (List.replicate n 0) s

/-- ILLEGAL_COMMAND: no result words, no event, no state change (R101, R334). -/
def raiseIllegal (s : State) : State := raiseStatus .illegalCommand 0 s

/-- `fault X` (R336): the first reason is kept; the command ends at once with no further event and no response; the
instance keeps the bus lock (R348). -/
def raiseFault (r : FaultReason) (s : State) : State :=
  { s with
    faultReason := some (s.faultReason.getD r)
    run := none
    resp := none
    lock := .held }

/-- A command of one pure computation ends: with status OK and its results, or with the model fault. -/
def finish (c : Calc (List Word)) (s : State) : Host.Outcome State Fault Refusal :=
  match c with
  | .value ws => .next (respond .ok ws s)
  | .fault r => .next (raiseFault r s)
  | .illFormed d => .refused (.illFormedConfig d)

/-! ### Bit-field and bank access -/

/-- The byte a merge writes: bits of `v` inside the mask, bits of the register outside it (R130). -/
def mergeBits (v m cur : Byte) : Byte := (v &&& m) ||| (cur &&& ~~~m)

/-- `SetBitsOp` (R130). -/
def setBitsOp (a : BusAddr) (r v m : Byte) (s : State) : Res Unit :=
  if m = 0x00 then .ok () s
  else if m = 0xFF then busWrite a r v s
  else (readByte a r s).bind fun cur s => busWrite a r (mergeBits v m cur) s

/-- `SetBankedBitsOp` (R131). -/
def setBankedBitsOp (a : BusAddr) (bank r v m : Byte) (s : State) : Res Unit :=
  (busWrite a s.cfg.bankSelectReg bank s).bind fun _ s => setBitsOp a r v m s

/-! ### WithRepeater (R220) -/

/-- The opening of WithRepeater: repeater on; where that fails, an attempt to switch it off and a failure. -/
def openRepeater (s : State) : Res Unit :=
  match setRepeater true s with
  | .ok _ s => .ok () s
  | .err s => .err (setRepeater false s).state

/-- The closing of WithRepeater after a body that succeeded. -/
def closeRepeater (s : State) : Res Unit := setRepeater false s

/-- The closing of WithRepeater after a body that failed: the call is made, its result does not matter. -/
def abandonRepeater (s : State) : State := (setRepeater false s).state

/-- `WithRepeater(P)` for a body that is one procedure. A tuner sequence's bracket spans several steps and uses the three
parts (Machine/Control.lean). -/
def withRepeater (p : State → Res Unit) (s : State) : Res Unit :=
  match openRepeater s with
  | .err s => .err s
  | .ok _ s =>
    match p s with
    | .err s => .err (abandonRepeater s)
    | .ok _ s => closeRepeater s

end Sys2Proof.Machine
end

