-- ==== Sys2Proof/Machine/Operands.lean ====
section
/-! DEFINITION. Operand forms and encodings of values: integers and words (R10, R11), multi-byte fields (R64, R67),
systems and sub-modes (R32 to R35), a request's operands (R222, R223, R256, R257), a ROM entry's access and source byte
(R200, R205). -/

namespace Sys2Proof.Machine

/-! ### Integers and words -/

/-- `toI32` (R11): the integer, or the model fault RESULT_RANGE. -/
def toI32 (n : Int) : Calc Int :=
  if -2147483648 ≤ n ∧ n ≤ 2147483647 then .value n else .fault .resultRange

/-- `bits32` (R11). -/
def bits32 (n : Int) : Word := BitVec.ofInt 32 n

/-- `tdiv` (R10): division truncated toward zero. -/
def tdiv (a b : Int) : Int := Int.tdiv a b

/-! ### Multi-byte fields -/

/-- `assemble(bytes, BE)`: the first byte is the most significant (R64). -/
def assembleBe (bytes : List Byte) : Nat := bytes.foldl (fun acc b => acc * 256 + b.toNat) 0

/-- `assemble(bytes, LE)`: the first byte is the least significant (R64). -/
def assembleLe : List Byte → Nat
  | [] => 0
  | b :: rest => b.toNat + 256 * assembleLe rest

/-- `assemble(bytes, MB_ORDER)` (R64) of at most four bytes. -/
def assemble (o : ByteOrder) (bytes : List Byte) : Word :=
  BitVec.ofNat 32 (match o with
    | .be => assembleBe bytes
    | .le => assembleLe bytes)

/-- Select the bank of a banked access; an unbanked one issues nothing (R67, R200). -/
def selectBank (a : BusAddr) (bank : Option Byte) (s : State) : Res Unit :=
  match bank with
  | some b => busWrite a s.cfg.bankSelectReg b s
  | none => .ok () s

/-- `ReadField(f)` (R67). -/
def readField (f : RegField) (s : State) : Res Word :=
  (selectBank (s.cfg.addr f.tgt) f.bank s).bind fun _ s =>
  (busRead (s.cfg.addr f.tgt) f.reg f.len s).bind fun bytes s =>
  .ok ((assemble s.cfg.mbOrder bytes >>> f.shift.toNat) &&& f.mask) s

/-! ### Systems and sub-modes -/

/-- The encoding of DS (R32). -/
def DemodState.code : DemodState → BitVec 2
  | .unknown => 0
  | .sleep => 1
  | .active => 2

/-- The encoding of SYS (R33). -/
def BroadcastSystem.code : BroadcastSystem → BitVec 2
  | .unknown => 0
  | .isdbT => 1
  | .isdbS => 2
  | .isdbS3 => 3

/-- The encoding of SUB (R34). -/
def SubMode.code : SubMode → BitVec 2
  | .none => 0
  | .terrestrial => 1
  | .satellite => 2

/-- The value of SYS for a system. -/
def systemValue : System → BroadcastSystem
  | .isdbT => .isdbT
  | .isdbS => .isdbS
  | .isdbS3 => .isdbS3

/-- The system SYS holds, none for Unknown. -/
def BroadcastSystem.system? : BroadcastSystem → Option System
  | .unknown => none
  | .isdbT => some .isdbT
  | .isdbS => some .isdbS
  | .isdbS3 => some .isdbS3

/-- `sub(s)`: the sub-mode a system needs (R35). -/
def subModeOf : System → SubMode
  | .isdbT => .terrestrial
  | .isdbS => .satellite
  | .isdbS3 => .satellite

/-! ### A SET_FRONTEND request -/

/-- The system a request tunes to: field SYS with the redirect of R256; none where it names no system. -/
def requestTarget (c : Config) (sys : BitVec 3) (sid : Word) : Option System :=
  match sys.toNat with
  | 1 => some .isdbT
  | 2 => if sid = c.s3StreamIdA ∨ sid = c.s3StreamIdB then some .isdbS3 else some .isdbS
  | 3 => some .isdbS3
  | _ => none

/-- The bandwidth a BW field names (R39: 6, 7 or 8 MHz). -/
def bandwidthOf (bw : BitVec 4) : Option Bandwidth :=
  match bw.toNat with
  | 6 => some .mhz6
  | 7 => some .mhz7
  | 8 => some .mhz8
  | _ => none

/-- The satellite frequency word before its width is checked (R222). -/
def satWord (freq : Word) : Nat := (freq.toNat + 2) / 4

/-- Do the bandwidth and the frequency suit the system (R257)? -/
def requestFits (c : Config) (t : System) (bw : BitVec 4) (freq : Word) : Bool :=
  match t with
  | .isdbT => (bandwidthOf bw).isSome && decide (freq.toNat < 2 ^ c.tFreqBits)
  | .isdbS | .isdbS3 => decide (satWord freq < 2 ^ satWordBits)

/-- FREQW (R222). Of a word that does not fit its 24 bits, the low 24: DESIGN CHOICE (log 15). -/
def freqWord (t : System) (freq : Word) : BitVec 24 :=
  match t with
  | .isdbT => BitVec.ofNat 24 freq.toNat
  | .isdbS | .isdbS3 => BitVec.ofNat 24 (satWord freq)

/-- The frequency sequence (R223). -/
def freqSequence (c : Config) (t : System) (freq : Word) : SeqId :=
  match t with
  | .isdbT => .tunerFreqTerr
  | .isdbS => .tunerFreqSatLo
  | .isdbS3 => if c.s3HighPathThresholdKhz.toNat < freq.toNat then .tunerFreqSatHi else .tunerFreqSatLo

/-- The sub-mode load sequence (R221). -/
def loadSequence : SubMode → SeqId
  | .terrestrial => .tunerLoadTerr
  | .satellite | .none => .tunerLoadSat

/-- The sleep-to-active sequence (R230). -/
def s2aSequence : System → SeqId
  | .isdbT => .s2aT
  | .isdbS => .s2aS
  | .isdbS3 => .s2aS3

/-- The same-system sequence (R230). -/
def sameSequence : System → SeqId
  | .isdbT => .sameT
  | .isdbS => .sameS
  | .isdbS3 => .sameS3

/-- The power-down sequence (R230). -/
def a2sSequence : System → SeqId
  | .isdbT => .a2sT
  | .isdbS => .a2sS
  | .isdbS3 => .a2sS3

/-! ### A ROM entry's access and source -/

/-- `Access(E, v)` (R200). -/
def accessOp (a : Access) (v : Byte) (s : State) : Res Unit :=
  match a.bank with
  | some bank => setBankedBitsOp (s.cfg.addr a.tgt) bank a.reg v a.mask s
  | none => setBitsOp (s.cfg.addr a.tgt) a.reg v a.mask s

/-- `ReadEntry(E)` (R200). -/
def readEntry (a : Access) (s : State) : Res Byte :=
  (selectBank (s.cfg.addr a.tgt) a.bank s).bind fun _ s => readByte (s.cfg.addr a.tgt) a.reg s

/-- `Src(s)` (R205): the byte, or none where the valid bit it requires is 0. -/
def sourceByte (c : Config) (r : Run) : Source → Option Byte
  | .freqw0 => r.freqw.map fun w => w.extractLsb' 0 8
  | .freqw1 => r.freqw.map fun w => w.extractLsb' 8 8
  | .freqw2 => r.freqw.map fun w => w.extractLsb' 16 8
  | .bandp k => r.bwsel.map fun b => (c.bandpTable.row b)[k.toFin]
  | .tunerbw k => r.bwsel.map fun b => (c.tunerbwTable.row b)[k.toFin]
  | .clockMode => r.tstuple.map TsTuple.clockMode
  | .dutyMode => r.tstuple.map TsTuple.dutyMode
  | .period => r.tstuple.map TsTuple.period
  | .ifClockSelect => r.tstuple.map TsTuple.ifClockSelect

/-- The TSCLK_TABLE index of a read byte: `(b & MASK) >> ctz(MASK)` (R207). -/
def tsIndex (b mask : Byte) : Nat := (b &&& mask).toNat >>> ctz mask

end Sys2Proof.Machine
end

