-- ==== Sys2Proof/Machine/BitField.lean ====
section
/-! DEFINITION. The bit-field commands of spec/40_bitfield.md. -/

namespace Sys2Proof.Machine

/-- A bit-field command ends: OK, or BUS_ERROR where a primitive returned `err` (R130, R131, R331). -/
def finishBits (r : Res Unit) : State :=
  match r with
  | .ok _ s => respond .ok [] s
  | .err s => raiseStatus .busError 0 s

/-- An operation on a target: the tuner's inside WithRepeater (R130, R131). -/
def onTarget (tgt : Target) (p : State → Res Unit) (s : State) : Res Unit :=
  match tgt with
  | .demod => p s
  | .tuner => withRepeater p s

/-- SETBITS (R130). -/
def execSetBits (tgt : Target) (reg val mask : Byte) (s : State) : Host.Outcome State Fault Refusal :=
  .next (finishBits (onTarget tgt (setBitsOp (s.cfg.addr tgt) reg val mask) s))

/-- SETBANKEDBITS (R131). -/
def execSetBankedBits (tgt : Target) (bank reg val mask : Byte) (s : State) : Host.Outcome State Fault Refusal :=
  .next (finishBits (onTarget tgt (setBankedBitsOp (s.cfg.addr tgt) bank reg val mask) s))

end Sys2Proof.Machine
end

