-- ==== Sys2Proof/Machine/Numeric.lean ====
section
/-! DEFINITION. The numeric estimation unit (spec/41_numeric.md): the functions of R150 to R177 and the six commands that
return them. -/

namespace Sys2Proof.Machine

/-! ### The functions -/

/-- The loop of R150: how often `t` can be halved before it is 0, by at most `fuel` halvings. -/
def halvings : Nat → Nat → Nat
  | 0, _ => 0
  | fuel + 1, t => if 0 < t then halvings fuel (t / 2) + 1 else 0

/-- `count` of R150: the index of the most significant set bit, 0 for 0 and 1. -/
def msbIndex (x : Word) : Nat := halvings 32 (x.toNat / 2)

/-- `idx` of R150: the five bits below the most significant one, aligned left when there are fewer. -/
def log2FracIndex (x : Word) : BitVec 5 :=
  let count := msbIndex x
  if count ≤ maxBitPrecision then BitVec.ofNat 5 (x.toNat <<< (maxBitPrecision - count))
  else BitVec.ofNat 5 (x.toNat >>> (count - maxBitPrecision))

/-- LOG2(x) (R150). -/
def log2Fixed (table : Vector Byte 32) (x : Word) : Nat :=
  msbIndex x * 100 + (table[(log2FracIndex x).toFin]).toNat

/-- LOG10(x) (R155). -/
def log10Fixed (table : Vector Byte 32) (x : Word) : Nat :=
  (100 * log2Fixed table x + log2Of10Scaled / 2) / log2Of10Scaled

/-- SEXT(v, w) (R160). -/
def sextWord (v : Word) (w : Nat) : Word :=
  if w = 0 ∨ 32 ≤ w then v
  else if v.getLsbD (w - 1) then v ||| (0xFFFFFFFF <<< w)
  else v &&& ((1 <<< w) - 1)

/-- The scan of R165 from index 1 on; `prev` is the value of the index before. -/
def scanTable (prev : Word) (q : Word) : List CnrEntry → Word
  | [] => prev
  | e :: rest => if e.code.toNat < q.toNat then prev else scanTable e.value q rest

/-- TLOOKUP(tab, q) (R165). An empty table is none of R166's. -/
def tableLookup (q : Word) : List CnrEntry → Calc Word
  | [] => .illFormed .cnrTable
  | e :: rest => .value (scanTable e.value q rest)

/-- PWL(model, v) (R170): the first segment with lo ≤ v < hi. -/
def pwlEval (v : Int) : List PwlSegment → Calc Int
  | [] => .fault .pwlNoSegment
  | g :: rest =>
    if g.lo.toInt ≤ v ∧ v < g.hi.toInt then
      if g.den = 0 then .illFormed .pwlModel
      else toI32 (g.ic.toInt - tdiv ((v - g.lo.toInt) * g.num.toInt) g.den.toInt)
    else pwlEval v rest

/-- PER(e, w) (R175). -/
def perCalc (e w : Nat) : Calc Nat :=
  if w = 0 then .fault .perDivZero
  else
    let n1 := e * perStage
    if 2 ^ 32 ≤ n1 then .fault .perOverflow
    else
      let q1 := n1 / w
      let r1 := n1 % w
      let n2 := r1 * perStage
      if 2 ^ 32 ≤ n2 then .fault .perOverflow
      else
        let q2 := n2 / w
        let r2 := n2 % w
        let q := q1 * perStage + q2 + (if w ≤ 2 * r2 then 1 else 0)
        if 2 ^ 32 ≤ q then .fault .perOverflow else .value q

/-- `rdiv(a, d)` (R177): division rounded to nearest, halves up, for d ≥ 1. -/
def rdiv (a d : Nat) : Nat := a / d + (if d ≤ 2 * (a % d) then 1 else 0)

/-! ### The commands -/

/-- LOG2 (R150). -/
def execLog2 (x : Word) (s : State) : Host.Outcome State Fault Refusal :=
  .next (respond .ok [BitVec.ofNat 32 (log2Fixed s.cfg.log2FracTable x)] s)

/-- LOG10 (R155). -/
def execLog10 (x : Word) (s : State) : Host.Outcome State Fault Refusal :=
  .next (respond .ok [BitVec.ofNat 32 (log10Fixed s.cfg.log2FracTable x)] s)

/-- SEXT (R160). -/
def execSext (w : BitVec 6) (v : Word) (s : State) : Host.Outcome State Fault Refusal :=
  .next (respond .ok [sextWord v w.toNat] s)

/-- TLOOKUP (R165). An ID that names no table is illegal (R101 item 5; log 8). -/
def execTlookup (id : Byte) (q : Word) (s : State) : Host.Outcome State Fault Refusal :=
  match s.cfg.cnrTables[id.toNat]? with
  | none => .next (raiseIllegal s)
  | some tab => finish ((tableLookup q tab).bind fun v => .value [v]) s

/-- PWL (R170); V is read as an i32 (R93). An ID that names no model is illegal (R101 item 6; log 8). -/
def execPwl (id : Byte) (v : Word) (s : State) : Host.Outcome State Fault Refusal :=
  match s.cfg.pwlModels[id.toNat]? with
  | none => .next (raiseIllegal s)
  | some model => finish ((pwlEval v.toInt model).bind fun n => .value [bits32 n]) s

/-- PERCALC (R175). -/
def execPercalc (e w : Word) (s : State) : Host.Outcome State Fault Refusal :=
  finish ((perCalc e.toNat w.toNat).bind fun q => .value [BitVec.ofNat 32 q]) s

end Sys2Proof.Machine
end

