-- ==== Sys2Proof/Machine/Metrics.lean ====
section
/-! DEFINITION. The metric pipelines of spec/44_status.md (R295 to R300) and the four commands that return them. -/

namespace Sys2Proof.Machine

/-- RssiT(agc, f) (R295): the first range with fLo ≤ f < fHi chooses the model. -/
def rssiTCalc (c : Config) (agc f : Word) : Calc Int :=
  match c.rssiTRanges.find? fun r => decide (r.fLo.toNat ≤ f.toNat) && decide (f.toNat < r.fHi.toNat) with
  | none => .fault .rssiFreqNoRange
  | some r =>
    (toI32 (agc.toNat * c.rssiTScale.toNat : Nat)).bind fun v =>
    match c.pwlModels[r.model.toNat]? with
    | none => .illFormed .pwlModel
    | some model => (pwlEval v model).bind fun g => toI32 (g + c.rssiTCal.toInt)

/-- RssiS(agc) (R296). -/
def rssiSCalc (c : Config) (agc : Word) : Calc Int :=
  if c.rssiSDiv = 0 then .illFormed .rssiDivisor
  else toI32 (c.rssiSOffset.toInt - (rdiv agc.toNat c.rssiSDiv.toNat : Nat))

/-- Rel(cnr) (R298). -/
def relScale (c : Config) (cnr : Int) : Int :=
  if cnr ≤ c.cnrRelLo.toInt then 0
  else if c.cnrRelHi.toInt ≤ cnr then 100
  else (cnr - c.cnrRelLo.toInt) * 100 / (c.cnrRelHi.toInt - c.cnrRelLo.toInt)

/-- CnrT(snr) (R297): cnr and rel. -/
def cnrTCalc (c : Config) (snr : Word) : Calc (Int × Int) :=
  (toI32 (c.cnrTMul.toInt * (log10Fixed c.log2FracTable snr : Nat) + c.cnrTOff.toInt)).bind fun cnr =>
  .value (cnr, relScale c cnr)

/-- CnrS(sys, code, sr) with the selection of the system (R299, R300). -/
def cnrSCalc (c : Config) (sel : CnrSelect) (code sr : Word) : Calc Word :=
  match c.cnrTables[sel.tableId sr]? with
  | none => .illFormed .cnrTable
  | some tab => tableLookup code tab

/-- RSSI_T (R295). -/
def execRssiT (agc f : Word) (s : State) : Host.Outcome State Fault Refusal :=
  finish ((rssiTCalc s.cfg agc f).bind fun n => .value [bits32 n]) s

/-- RSSI_S (R296). -/
def execRssiS (agc : Word) (s : State) : Host.Outcome State Fault Refusal :=
  finish ((rssiSCalc s.cfg agc).bind fun n => .value [bits32 n]) s

/-- CNR_T (R297): R1 = cnr, R2 = rel. -/
def execCnrT (snr : Word) (s : State) : Host.Outcome State Fault Refusal :=
  finish ((cnrTCalc s.cfg snr).bind fun p => .value [bits32 p.1, bits32 p.2]) s

/-- CNR_S (R299). A SYS that is neither 2 nor 3 is illegal (R101 item 7; log 8). -/
def execCnrS (sys : BitVec 3) (code symrate : Word) (s : State) : Host.Outcome State Fault Refusal :=
  match sys.toNat with
  | 2 => finish ((cnrSCalc s.cfg s.cfg.cnrSelectS code symrate).bind fun v => .value [v]) s
  | 3 => finish ((cnrSCalc s.cfg s.cfg.cnrSelectS3 code symrate).bind fun v => .value [v]) s
  | _ => .next (raiseIllegal s)

end Sys2Proof.Machine
end

