-- ==== Sys2Proof/Machine/Control.lean ====
section
/-! DEFINITION. The control flow of the commands that run ROM sequences (R200, R220 to R225, R230, R250, R252, R255):
which sequence a phase runs, what follows its END, and what a failed entry does. The primitives between two sequences
belong to the step that ends the first (log 7). -/

namespace Sys2Proof.Machine

/-- The sequence a phase runs (R106, R221, R223, R230). -/
def Phase.sequence (c : Config) : Phase → SeqId
  | .initDemod => .demodInit
  | .initTuner => .tunerColdboot
  | .sleep old => a2sSequence old
  | .tuneSleep old _ => a2sSequence old
  | .tuneS2A req => s2aSequence req.target
  | .tuneSame req => sameSequence req.target
  | .tuneReset _ => .tunerReset
  | .tuneLoad req => loadSequence (subModeOf req.target)
  | .tuneFreq req => freqSequence c req.target req.freq

/-- Does the phase's sequence run inside an open WithRepeater bracket (R224, R225)? -/
def Phase.inBracket : Phase → Bool
  | .initTuner | .tuneReset _ | .tuneLoad _ | .tuneFreq _ => true
  | .initDemod | .sleep _ | .tuneSleep _ _ | .tuneS2A _ | .tuneSame _ => false

/-- A command enters its first sequence: the entry index is 0 (R31), every valid bit but the given one is 0 (R39). -/
def startRun (p : Phase) (bwsel : Option Bandwidth) (s : State) : State :=
  { s with run := some { phase := p, index := 0, freqw := none, bwsel := bwsel, tstuple := none } }

/-- The running command enters its next sequence; its working state goes on (R39). -/
def gotoPhase (r : Run) (p : Phase) (s : State) : State :=
  { s with run := some { r with phase := p, index := 0 } }

/-- The entry index advances by one after an entry that does not end the sequence (R31). -/
def advance (r : Run) (s : State) : State :=
  { s with run := some { r with index := r.index + 1 } }

/-- The fields a successful INIT or sleep transition writes (R250, R252). -/
def sleepFields (s : State) : State :=
  { s with ds := .sleep, sys := .unknown, sub := .none, tunedValid := false }

/-- `LatchTuned` (R259). -/
def latchTuned (req : TuneReq) (s : State) : State :=
  { s with
    tunedFreq := req.freq
    tunedBw := (match req.target with
      | .isdbT => req.bw
      | .isdbS | .isdbS3 => 0)
    tunedValid := true }

/-- SET_FRONTEND case 3 begins: SYS is written before any sequence runs (R258). -/
def enterS2A (r : Run) (req : TuneReq) (s : State) : State :=
  gotoPhase r (.tuneS2A req) { s with sys := systemValue req.target }

/-- FREQW is set, then the frequency sequence runs (R224). -/
def enterFreq (r : Run) (req : TuneReq) (s : State) : State :=
  gotoPhase { r with freqw := some (freqWord req.target req.freq) } (.tuneFreq req) s

/-- `TunerTune` begins: WithRepeater opens, then SubModeSwitch (R221, R224). -/
def enterTuner (r : Run) (req : TuneReq) (s : State) : State :=
  match openRepeater s with
  | .err s => raiseStatus .hardwareIoError 0 s
  | .ok _ s => if s.sub ≠ subModeOf req.target then gotoPhase r (.tuneReset req) s else enterFreq r req s

/-- INIT's cold boot begins: WithRepeater opens (R225). -/
def enterColdboot (r : Run) (s : State) : State :=
  match openRepeater s with
  | .err s => raiseStatus .hardwareIoError 0 s
  | .ok _ s => gotoPhase r .initTuner s

/-- INIT's cold boot has succeeded: WithRepeater closes, then the fields are written (R250). -/
def finishInit (s : State) : State :=
  match closeRepeater s with
  | .err s => raiseStatus .hardwareIoError 0 s
  | .ok _ s => respond .ok [] (sleepFields s)

/-- TunerTune has succeeded: WithRepeater closes, then the tune is latched, and in case 3 DS becomes Active last
(R255, R258, R259). -/
def finishTune (req : TuneReq) (s : State) : State :=
  match closeRepeater s with
  | .err s => raiseStatus .hardwareIoError 0 s
  | .ok _ s =>
    if req.same then respond .ok [] (latchTuned req s)
    else respond .ok [] { latchTuned req s with ds := .active }

/-- What follows the END of the running sequence. -/
def afterSequence (r : Run) (s : State) : State :=
  match r.phase with
  | .initDemod => enterColdboot r s
  | .initTuner => finishInit s
  | .sleep _ => respond .ok [] (sleepFields s)
  | .tuneSleep _ req => enterS2A r req (sleepFields s)
  | .tuneS2A req => enterTuner r req s
  | .tuneSame req => enterTuner r req s
  | .tuneReset req => gotoPhase r (.tuneLoad req) { s with sub := .none }
  | .tuneLoad req => enterFreq r req { s with sub := subModeOf req.target }
  | .tuneFreq req => finishTune req s

/-- An entry of the running sequence has failed: the repeater-off call of an open bracket, then the status (R226, R340).
Every command that runs a sequence has no result words (R100). -/
def failSequence (st : Status) (r : Run) (s : State) : State :=
  raiseStatus st 0 (if r.phase.inBracket then abandonRepeater s else s)

end Sys2Proof.Machine
end

