-- ==== Sys2Proof/Machine/Sequencer.lean ====
section
/-! DEFINITION. The seven ROM entry kinds (R202 to R209) as the sequencer executes them inside a running sequence. -/

namespace Sys2Proof.Machine

/-- Only a running sequence executes entries (R200; log 10). -/
def inSequence (s : State) (f : Run → Host.Outcome State Fault Refusal) : Host.Outcome State Fault Refusal :=
  match s.run with
  | none => .refused .noSequence
  | some r => f r

/-- After an access: the next entry, or HARDWARE_IO_ERROR on a bus failure (R200, R226, R332). -/
def afterAccess (r : Run) (res : Res Unit) : State :=
  match res with
  | .ok _ s => advance r s
  | .err s => failSequence .hardwareIoError r s

/-- END (R202). -/
def execEndSeq (s : State) : Host.Outcome State Fault Refusal :=
  inSequence s fun r => .next (afterSequence r s)

/-- WR (R203). -/
def execWr (a : Access) (val : Byte) (s : State) : Host.Outcome State Fault Refusal :=
  inSequence s fun r => .next (afterAccess r (accessOp a val s))

/-- WRV (R205): the model fault WRV_SOURCE_UNSET where the source's valid bit is 0. -/
def execWrv (a : Access) (src : Source) (s : State) : Host.Outcome State Fault Refusal :=
  inSequence s fun r =>
    match sourceByte s.cfg r src with
    | none => .next (raiseFault .wrvSourceUnset s)
    | some v => .next (afterAccess r (accessOp a v s))

/-- DELAY (R206). -/
def execDelay (ms : BitVec 16) (s : State) : Host.Outcome State Fault Refusal :=
  inSequence s fun r => .next (advance r (delayMs ms s))

/-- POLLZ's verdict on the byte read (R208): TUNER_INIT_ERROR where a masked bit is set (R333). -/
def afterPoll (mask : Byte) (r : Run) (res : Res Byte) : State :=
  match res with
  | .ok b s => if b &&& mask = 0 then advance r s else failSequence .tunerInitError r s
  | .err s => failSequence .hardwareIoError r s

/-- POLLZ (R208). -/
def execPollz (a : Access) (s : State) : Host.Outcome State Fault Refusal :=
  inSequence s fun r => .next (afterPoll a.mask r (readEntry a s))

/-- RDSEL (R207). No MASK 0 and no index outside TSCLK_TABLE stand in a well-formed SEQ_ROM (R201 items 5 and 8). -/
def execRdsel (a : Access) (s : State) : Host.Outcome State Fault Refusal :=
  inSequence s fun r =>
    if a.mask = 0 then .refused (.illFormedConfig .tsClockIndex)
    else
      match readEntry a s with
      | .err t => .next (failSequence .hardwareIoError r t)
      | .ok b t =>
        match t.cfg.tsclkTable[tsIndex b a.mask]? with
        | none => .refused (.illFormedConfig .tsClockIndex)
        | some tuple => .next (advance { r with tstuple := some tuple } t)

/-- HOOK (R209). -/
def execHook (id val : Byte) (s : State) : Host.Outcome State Fault Refusal :=
  inSequence s fun r => .next (advance r (hookOutput id val s))

end Sys2Proof.Machine
end

