-- ==== Sys2Proof/Machine/Flags.lean ====
section
/-! DEFINITION. The words that carry flags: R0 (R94, R95), the STATE word (R42), the flags word of READ_STATUS
(R291, R292). -/

namespace Sys2Proof.Machine

/-- A flag as one bit. -/
def flagBit (b : Bool) : BitVec 1 := BitVec.ofBool b

/-- The status codes of R95. -/
def Status.code : Status → Byte
  | .ok => 0x00
  | .busError => 0x01
  | .hardwareIoError => 0x02
  | .tunerInitError => 0x03
  | .unsupportedSystem => 0x04
  | .illegalCommand => 0x05

/-- R0: the status code in bits 7:0, bits 31:8 zero (R94). -/
def Response.r0 (r : Response) : Word := (0 : BitVec 24) ++ r.status.code

/-- The STATE word, field by field from bit 31 down, reserved bits 0 (R42). -/
def stateWord (s : State) : Word :=
  (0 : BitVec 12) ++ s.tunedBw ++ (0 : BitVec 2) ++ flagBit s.tunedValid ++ flagBit s.rep ++ (0 : BitVec 2)
    ++ s.sub.code ++ (0 : BitVec 2) ++ s.sys.code ++ (0 : BitVec 2) ++ s.ds.code

/-- The five lock flags LOCK, SYNC, FEC, CARRIER, SIGNAL: all at full lock, else SIGNAL and CARRIER only (R292). -/
def lockFlags (full : Bool) : BitVec 5 := if full then 0x1F else 0x03

/-- R1 of READ_STATUS: PER_V, REL_V, CNR_V, RSSI_V in bits 11 to 8, the lock flags in bits 4:0, reserved bits 0
(R290, R291). -/
def flagsWord (full rssiV cnrV relV perV : Bool) : Word :=
  (0 : BitVec 20) ++ flagBit perV ++ flagBit relV ++ flagBit cnrV ++ flagBit rssiV ++ (0 : BitVec 3) ++ lockFlags full

end Sys2Proof.Machine
end

