-- ==== Sys2Proof/Machine/Status.lean ====
section
/-! DEFINITION. READ_STATUS (R290 to R294). -/

namespace Sys2Proof.Machine

/-- The LOCK_COND loop: every listed field is read; full lock when each reads as expected (R290, R292). -/
def readLock : List (RegField × Word) → State → Res Bool
  | [], s => .ok true s
  | (f, e) :: rest, s =>
    (readField f s).bind fun v s =>
    (readLock rest s).bind fun full s => .ok ((v == e) && full) s

/-- The RF level of the active system (R290); the terrestrial one uses the latched TUNED_FREQ. -/
def rfLevel (sy : System) (agc : Word) (s : State) : Option Int :=
  match sy with
  | .isdbT => (rssiTCalc s.cfg agc s.tunedFreq).avail
  | .isdbS | .isdbS3 => (rssiSCalc s.cfg agc).avail

/-- SYMRATE_FIELD's reading, 0 where the field is absent (R300). -/
def readSymrate (s : State) : Res Word :=
  match s.cfg.symrateField with
  | some f => readField f s
  | none => .ok 0 s

/-- cnr and rel where they are available (R290): read at full lock only; rel for IsdbT only. -/
def readCnr (sy : System) (full : Bool) (s : State) : Res (Option Word × Option Word) :=
  if full then
    match sy with
    | .isdbT =>
      (readField s.cfg.snrFieldT s).bind fun x s =>
      .ok (match (cnrTCalc s.cfg x).avail with
        | some p => (some (bits32 p.1), some (bits32 p.2))
        | none => (none, none)) s
    | .isdbS =>
      (readSymrate s).bind fun sr s => (readField s.cfg.cnrFieldS s).bind fun x s =>
      .ok ((cnrSCalc s.cfg s.cfg.cnrSelectS x sr).avail, none) s
    | .isdbS3 =>
      (readSymrate s).bind fun sr s => (readField s.cfg.cnrFieldS3 s).bind fun x s =>
      .ok ((cnrSCalc s.cfg s.cfg.cnrSelectS3 x sr).avail, none) s
  else .ok (none, none) s

/-- PER where it is available: terrestrial only, at any lock state (R290). -/
def readPer (sy : System) (s : State) : Res (Option Nat) :=
  match sy with
  | .isdbT =>
    (readField s.cfg.errcntField s).bind fun e s =>
    (readField s.cfg.wincntField s).bind fun w s => .ok (perCalc e.toNat w.toNat).avail s
  | .isdbS | .isdbS3 => .ok none s

/-- The five result words for the active system, in R290's read order. -/
def statusWords (sy : System) (s : State) : Res (List Word) :=
  (readLock (s.cfg.lockCond.get sy) s).bind fun full s =>
  (readField (s.cfg.agcField.get sy) s).bind fun a s =>
  (readCnr sy full s).bind fun c s' =>
  (readPer sy s').bind fun per s' =>
  let rf := rfLevel sy a s
  .ok [flagsWord full rf.isSome c.1.isSome c.2.isSome per.isSome,
    (rf.map bits32).getD 0, c.1.getD 0, c.2.getD 0, (per.map (BitVec.ofNat 32)).getD 0] s'

/-- READ_STATUS (R290): OK with five zeros when DS ≠ Active (R294); HARDWARE_IO_ERROR on the first failed read. -/
def execReadStatus (s : State) : Host.Outcome State Fault Refusal :=
  match s.ds with
  | .active =>
    match s.sys.system? with
    | none => .refused .noActiveSystem
    | some sy =>
      match statusWords sy s with
      | .ok ws t => .next (respond .ok ws t)
      | .err t => .next (raiseStatus .hardwareIoError 5 t)
  | .unknown | .sleep => .next (respond .ok [0, 0, 0, 0, 0] s)

end Sys2Proof.Machine
end

