-- ==== Sys2Proof/Machine/Tuning.lean ====
section
/-! DEFINITION. The tuning state machine's commands (spec/43_state_machine.md). A command that runs sequences begins
here; Machine/Control.lean says how it goes on. -/

namespace Sys2Proof.Machine

/-- INIT (R250): accepted in every DS state; SEQ_DEMOD_INIT first. -/
def execInit (s : State) : Host.Outcome State Fault Refusal :=
  .next (startRun .initDemod none s)

/-- SLEEP (R252): the power-down sequence of the active system, else the fields at once. -/
def execSleep (s : State) : Host.Outcome State Fault Refusal :=
  match s.ds with
  | .active =>
    match s.sys.system? with
    | some old => .next (startRun (.sleep old) none s)
    | none => .refused .noActiveSystem
  | .unknown | .sleep => .next (respond .ok [] (sleepFields s))

/-- BWSEL of a request: the bandwidth for IsdbT, not valid for a satellite system (R255). -/
def requestBwsel (t : System) (bw : BitVec 4) : Option Bandwidth :=
  match t with
  | .isdbT => bandwidthOf bw
  | .isdbS | .isdbS3 => none

/-- SET_FRONTEND past its validation: the three cases of R255. -/
def startTune (t : System) (bw : BitVec 4) (freq : Word) (s : State) : Host.Outcome State Fault Refusal :=
  match s.ds with
  | .active =>
    match s.sys.system? with
    | none => .refused .noActiveSystem
    | some old =>
      if old = t then
        .next (startRun (.tuneSame { target := t, bw := bw, freq := freq, same := true }) (requestBwsel t bw) s)
      else
        .next (startRun (.tuneSleep old { target := t, bw := bw, freq := freq, same := false }) (requestBwsel t bw) s)
  | .unknown | .sleep =>
    .next (startRun (.tuneS2A { target := t, bw := bw, freq := freq, same := false }) (requestBwsel t bw)
      { s with sys := systemValue t })

/-- SET_FRONTEND (R255): the redirect (R256), then the validation with no event and no state change (R257), then the tune. -/
def execSetFrontend (sys : BitVec 3) (bw : BitVec 4) (freq sid : Word) (s : State) :
    Host.Outcome State Fault Refusal :=
  match requestTarget s.cfg sys sid with
  | none => .next (raiseStatus .unsupportedSystem 0 s)
  | some t =>
    if requestFits s.cfg t bw freq = true ∧ s.ds ≠ .unknown then startTune t bw freq s
    else .next (raiseStatus .unsupportedSystem 0 s)

/-- GET_STATE (R262). -/
def execGetState (s : State) : Host.Outcome State Fault Refusal :=
  .next (respond .ok [stateWord s, s.tunedFreq] s)

end Sys2Proof.Machine
end

