-- ==== Sys2Proof/Machine/Dispatch.lean ====
section
/-! DEFINITION. The dispatch: one arm for each instruction of R100 and R104. -/

namespace Sys2Proof.Machine

/-- What executing an instruction does. -/
def exec (i : Instr) (s : State) : Host.Outcome State Fault Refusal :=
  match i with
  | .log2 x => Sys2Proof.Machine.execLog2 x s
  | .log10 x => Sys2Proof.Machine.execLog10 x s
  | .sext w v => Sys2Proof.Machine.execSext w v s
  | .tlookup id q => Sys2Proof.Machine.execTlookup id q s
  | .pwl id v => Sys2Proof.Machine.execPwl id v s
  | .percalc e w => Sys2Proof.Machine.execPercalc e w s
  | .rssiT agc f => Sys2Proof.Machine.execRssiT agc f s
  | .rssiS agc => Sys2Proof.Machine.execRssiS agc s
  | .cnrT snr => Sys2Proof.Machine.execCnrT snr s
  | .cnrS sys code symrate => Sys2Proof.Machine.execCnrS sys code symrate s
  | .setBits tgt reg val mask => Sys2Proof.Machine.execSetBits tgt reg val mask s
  | .setBankedBits tgt bank reg val mask => Sys2Proof.Machine.execSetBankedBits tgt bank reg val mask s
  | .init => Sys2Proof.Machine.execInit s
  | .sleep => Sys2Proof.Machine.execSleep s
  | .setFrontend sys bw freq sid => Sys2Proof.Machine.execSetFrontend sys bw freq sid s
  | .readStatus => Sys2Proof.Machine.execReadStatus s
  | .getState => Sys2Proof.Machine.execGetState s
  | .endSeq => Sys2Proof.Machine.execEndSeq s
  | .wr a val => Sys2Proof.Machine.execWr a val s
  | .wrv a src => Sys2Proof.Machine.execWrv a src s
  | .delay ms => Sys2Proof.Machine.execDelay ms s
  | .pollz a => Sys2Proof.Machine.execPollz a s
  | .rdsel a => Sys2Proof.Machine.execRdsel a s
  | .hook id val => Sys2Proof.Machine.execHook id val s

end Sys2Proof.Machine
end

