-- ==== Sys2Proof/Machine/Fetch.lean ====
section
/-! DEFINITION. Where a step finds its instruction: in SEQ_ROM at the running sequence's entry index (R200), or on the
command port between commands (R90, R345); and how a word is placed there. -/

namespace Sys2Proof.Machine

/-- What a step finds. -/
inductive Fetched where
  /-- an instruction, and the state it runs in -/
  | instr (i : Instr) (s : State)
  /-- a command that does not decode, and the state that answers it (R101) -/
  | illegal (s : State)
  /-- between commands with no command to take: none is delivered, or another instance holds the bus lock (log 6) -/
  | idle
  /-- no entry that decodes: only in a configuration that R338 refuses (log 2) -/
  | defect (d : ConfigDefect)

/-- The block takes a command from the port: the bus lock is taken (R348), and no response stands until it is sent. -/
def takeCommand (rest : List Command) (s : State) : State :=
  { s with port := rest, resp := none, lock := .held }

/-- The next entry of the running sequence (R200). -/
def fetchEntry (r : Run) (s : State) : Fetched :=
  match (s.cfg.seqRom.entries (r.phase.sequence s.cfg))[r.index]? with
  | none => .defect .sequenceOverrun
  | some e =>
    match decodeEntry e with
    | .error _ => .defect .entryUndecodable
    | .ok i => .instr i s

/-- The next command of the port (R90, R339: decoding comes first). -/
def fetchCommand (s : State) : Fetched :=
  match s.port with
  | [] => .idle
  | c :: rest =>
    match decodeCommand c.w0 c.ops with
    | .error _ => .illegal (takeCommand rest s)
    | .ok i => .instr i (takeCommand rest s)

/-- What the next step of a block that is not faulted finds. -/
def fetch (s : State) : Fetched :=
  match s.run with
  | some r => fetchEntry r s
  | none =>
    match s.lock with
    | .other => .idle
    | .free | .held => fetchCommand s

/-- A sequence with `e` at index `n`; entries that do not exist before it become END. -/
def setEntry (e : RomWord) : Nat → List RomWord → List RomWord
  | 0, es => e :: es.drop 1
  | n + 1, es => (es.head?.getD 0) :: setEntry e n (es.drop 1)

/-- A run of sequence 0 from its first entry: what a ROM entry is placed in where no sequence runs (log 5). -/
def firstRun : Run := { phase := .initDemod, index := 0, freqw := none, bwsel := none, tstuple := none }

/-- The state with an instruction's words where the next step fetches: a command first on the port of a block between
commands, a ROM entry at the index of the running sequence (log 5). -/
def placeEncoding (s : State) : Encoding → State
  | .command w0 ops =>
    { s with faultReason := none, refused := false, run := none, lock := .free, port := { w0 := w0, ops := ops } :: s.port }
  | .romEntry e =>
    let r := s.run.getD firstRun
    let id := r.phase.sequence s.cfg
    { s with
      faultReason := none
      refused := false
      run := some r
      lock := .held
      cfg := { s.cfg with
        seqRom := s.cfg.seqRom.withEntries (setEntry e r.index (s.cfg.seqRom.entries id)) id } }

end Sys2Proof.Machine
end

