-- ==== Sys2Proof/Machine/Step.lean ====
section
/-! DEFINITION. One step of the block: a faulted block is stuck (R336); where a configuration was refused there is no
block (R338); else it runs the instruction it finds, answers a command that does not decode (R334), or waits (log 6). -/

namespace Sys2Proof.Machine

/-- One step. -/
def step (s : State) : Host.Outcome State Fault Refusal :=
  match s.faultReason with
  | some r => .fault (.stuck r)
  | none =>
    match s.refused with
    | true => .refused (.illFormedConfig .refusedAtAttach)
    | false =>
      match fetch s with
      | .instr i t => exec i t
      | .illegal t => .next (raiseIllegal t)
      | .idle => .next s
      | .defect d => .refused (.illFormedConfig d)

/-- The state with the instruction of `nbits` bits `w` (spec/opcode_table.json's numbering) where `step` fetches next. -/
def State.withFetchWord (s : State) (nbits w : Nat) : State := placeEncoding s (tableEncoding nbits w)

end Sys2Proof.Machine
end

