-- ==== Sys2Proof/Machine/Context.lean ====
section
/-! DEFINITION. A shared context (R348): the block instances on one physical bus, with their one configuration, their one bus
lock and the bus's history. Which instance moves next, and when one attaches or detaches, is an input: a claim holds for every
order (R76, I41; log 12). The host's machine (Machine/Core.lean) is one instance; here instances stand side by side and move
by the same `step`. -/

namespace Sys2Proof.Machine

/-- A shared context (R348). -/
structure SharedBus where
  /-- the configuration all instances share -/
  cfg : Config
  /-- the instances in the order they attached, each with its own state; none where one has detached -/
  instances : List (Option State)
  /-- the instance that holds the bus lock -/
  owner : Option Nat
  /-- MODEL: how many answers on this bus were free values. All instances draw from this one count, so no two events of the
  bus share a free answer (log 3). -/
  draws : Nat
  /-- the events of the shared bus with the instance each belongs to, the oldest first -/
  busHistory : List (Nat × Event)
deriving DecidableEq, Repr

/-- The attached instance number `k`. -/
def SharedBus.instanceAt (b : SharedBus) (k : Nat) : Option State := (b.instances[k]?).join

/-- The bus lock as instance `k` sees it. -/
def SharedBus.lockSeenBy (b : SharedBus) (k : Nat) : BusLock :=
  match b.owner with
  | none => .free
  | some j => if j = k then .held else .other

/-- The state instance `k` moves from: its own, with the context's configuration, lock and count of free answers. -/
def SharedBus.seenBy (b : SharedBus) (k : Nat) (s : State) : State :=
  { s with cfg := b.cfg, lock := b.lockSeenBy k, draws := b.draws }

/-- The owner of the lock after instance `k` moved and left the lock as `l` (R348). -/
def SharedBus.ownerAfter (b : SharedBus) (k : Nat) (l : BusLock) : Option Nat :=
  match l with
  | .held => some k
  | .free => none
  | .other => b.owner

/-- Instance `k` takes one step on the shared bus. -/
def SharedBus.move (b : SharedBus) (k : Nat) : Host.Outcome SharedBus Fault Refusal :=
  match b.instanceAt k with
  | none => .next b
  | some s =>
    match step (b.seenBy k s) with
    | .next t => .next { b with
        instances := b.instances.set k (some t)
        owner := b.ownerAfter k t.lock
        draws := t.draws
        busHistory := b.busHistory ++ (t.history.drop s.history.length).map fun e => (k, e) }
    | .fault r => .fault r
    | .refused r => .refused r

/-! ### The context's lifetime (R348, R360) -/

/-- A new context: one instance attached with configuration `c`, which R338 may refuse. -/
def SharedBus.create (c : Config) : Host.Outcome SharedBus Fault Refusal :=
  match attach c with
  | .next s => .next { cfg := c, instances := [some s], owner := none, draws := 0, busHistory := [] }
  | .fault r => .fault r
  | .refused r => .refused r

/-- One more instance attaches to the context, with its configuration. Attach issues no event (R361) and does not touch the
lock. -/
def SharedBus.join (b : SharedBus) : SharedBus :=
  { b with instances := b.instances ++ [some (State.attach b.cfg)] }

/-- Instance `k` detaches; none where the context has no instance left, and so ends (R348). A command that runs is not
cancelled (R345): until it ends the instance stays. A faulted instance never releases the lock, by detaching neither
(log 29). -/
def SharedBus.detach (b : SharedBus) (k : Nat) : Option SharedBus :=
  match b.instanceAt k with
  | none => some b
  | some s =>
    if s.run.isSome then some b
    else if (b.instances.set k none).any Option.isSome then some { b with instances := b.instances.set k none }
    else none

/-- What can become of a context while it exists: moves of its instances, attaches and detaches, in any order. -/
inductive SharedBus.Reaches : SharedBus → SharedBus → Prop where
  | refl (b : SharedBus) : SharedBus.Reaches b b
  | move {b c d : SharedBus} (h : SharedBus.Reaches b c) (k : Nat) (hk : c.move k = .next d) : SharedBus.Reaches b d
  | join {b c : SharedBus} (h : SharedBus.Reaches b c) : SharedBus.Reaches b c.join
  | detach {b c d : SharedBus} (h : SharedBus.Reaches b c) (k : Nat) (hk : c.detach k = some d) : SharedBus.Reaches b d

end Sys2Proof.Machine
end

