-- ==== Sys2Proof/Safety.lean ====
section
/-! DEFINITION. What claims call a good state and a good run: the invariant of the block's fields (R43, R220, R348), of a
running sequence (R31, R39), and the repeater discipline of the event history (R366). -/

namespace Sys2Proof.Machine

/-! ### Frames -/

/-- The configuration with its acceptance, DS, SYS, SUB, TUNED_*, the fault record and the port are the same. -/
def SameFields (s t : State) : Prop :=
  t.cfg = s.cfg ∧ t.ds = s.ds ∧ t.sys = s.sys ∧ t.sub = s.sub ∧ t.tunedFreq = s.tunedFreq ∧ t.tunedBw = s.tunedBw ∧
  t.tunedValid = s.tunedValid ∧ t.faultReason = s.faultReason ∧ t.port = s.port ∧ t.refused = s.refused

/-- No primitive was called: the event history, REP and the environment's answers to come are the same. -/
def NoEvent (s t : State) : Prop :=
  t.history = s.history ∧ t.rep = s.rep ∧ t.env = s.env ∧ t.draws = s.draws

/-- The history of `t` is that of `s` and then `es`. -/
def Extends (s t : State) (es : List Event) : Prop := t.history = s.history ++ es

/-! ### The block's invariant -/

/-- R43: where DS = Active, SYS is a system, SUB is the sub-mode it needs, and a tune is latched. -/
def ActiveConsistent (s : State) : Prop :=
  s.ds = .active → ∃ sy, s.sys = systemValue sy ∧ s.sub = subModeOf sy ∧ s.tunedValid = true

/-- What the fields are while the running command stands at a phase (R252, R255, R258). -/
def PhaseConsistent (s : State) : Phase → Prop
  | .initDemod => True
  | .initTuner => True
  | .sleep old => s.ds = .active ∧ s.sys = systemValue old
  | .tuneSleep old req => s.ds = .active ∧ s.sys = systemValue old ∧ old ≠ req.target ∧ req.same = false
  | .tuneS2A req => s.ds = .sleep ∧ s.sys = systemValue req.target ∧ req.same = false
  | .tuneSame req => s.ds = .active ∧ s.sys = systemValue req.target ∧ req.same = true
  | .tuneReset req => s.ds = .sleep ∧ s.sys = systemValue req.target ∧ req.same = false
  | .tuneLoad req => s.ds = .sleep ∧ s.sys = systemValue req.target ∧ req.same = false
  | .tuneFreq req =>
    s.sys = systemValue req.target ∧ s.sub = subModeOf req.target ∧
    (req.same = true → s.ds = .active) ∧ (req.same = false → s.ds = .sleep)

/-- FREQW is valid exactly while the frequency sequence runs (R224). -/
def FreqwConsistent (r : Run) : Prop :=
  match r.phase with
  | .tuneFreq req => r.freqw = some (freqWord req.target req.freq)
  | .initDemod | .initTuner | .sleep _ | .tuneSleep _ _ | .tuneS2A _ | .tuneSame _ | .tuneReset _ | .tuneLoad _ =>
    r.freqw = none

/-- The lock is this instance's exactly while a command runs or after a model fault (R348). -/
def LockConsistent (s : State) : Prop :=
  s.lock = .held ↔ (s.run.isSome = true ∨ s.faultReason.isSome = true)

/-- The invariant of the block's fields that every step keeps. -/
structure BlockInv (s : State) : Prop where
  active : ActiveConsistent s
  phase : ∀ r, s.run = some r → PhaseConsistent s r.phase
  freqw : ∀ r, s.run = some r → FreqwConsistent r
  /-- inside a WithRepeater bracket the repeater is on (R220) -/
  bracket : ∀ r, s.run = some r → r.phase.inBracket = true → s.rep = true
  /-- a command that runs has not responded (R90) -/
  pending : s.run.isSome = true → s.resp = none
  /-- a fault ends the running command (R336) -/
  faulted : s.faultReason.isSome = true → s.run = none ∧ s.resp = none
  lock : LockConsistent s

/-- The request the running SET_FRONTEND of a phase serves. -/
def Phase.request : Phase → Option TuneReq
  | .initDemod => none
  | .initTuner => none
  | .sleep _ => none
  | .tuneSleep _ req => some req
  | .tuneS2A req => some req
  | .tuneSame req => some req
  | .tuneReset req => some req
  | .tuneLoad req => some req
  | .tuneFreq req => some req

/-- The invariant of requests that every step keeps: TUNED_BW is one of the values R42 lists; a tune that runs has passed
its validation (R257), and BWSEL is valid for a terrestrial tune and for nothing else (R39, R255). -/
structure RequestInv (s : State) : Prop where
  tunedBw : s.tunedBw = 0 ∨ s.tunedBw = 6 ∨ s.tunedBw = 7 ∨ s.tunedBw = 8
  bwsel : ∀ r, s.run = some r → match r.phase.request with
    | none => r.bwsel = none
    | some req => requestFits s.cfg req.target req.bw req.freq = true ∧ r.bwsel = requestBwsel req.target req.bw

/-- The sequencer stands at an entry that exists (R31). -/
def EntryExists (s : State) : Prop :=
  ∀ r, s.run = some r → r.index < (s.cfg.seqRom.entries (r.phase.sequence s.cfg)).length

/-- A state of an instance with a well-formed configuration that the spec's runs can be in. -/
structure GoodState (s : State) : Prop where
  config : configWf s.cfg = true
  accepted : s.refused = false
  block : BlockInv s
  entry : EntryExists s

/-- A step of a good run: it goes on, or the block is stuck after a model fault it recorded (R336). It never meets a
refusal (R338). -/
def SafeStep (s : State) : Prop :=
  (∃ t, step s = .next t) ∨ (∃ r, s.faultReason = some r ∧ step s = .fault (.stuck r))

/-! ### The repeater discipline of the history (R366) -/

/-- Does the event read or write a register at bus address `a`? -/
def Event.accesses (a : BusAddr) : Event → Bool
  | .busWrite b _ _ _ => b == a
  | .busRead b _ _ _ => b == a
  | .setRepeater _ _ => false
  | .hook _ _ => false
  | .delay _ => false

/-- REP after an event (R36). -/
def repAfter (rep : Bool) : Event → Bool
  | .setRepeater b ok => if ok then b else rep
  | .busWrite _ _ _ _ => rep
  | .busRead _ _ _ _ => rep
  | .hook _ _ => rep
  | .delay _ => rep

/-- Every access to `a` in these events happens while REP is 1, REP being `rep` before the first. -/
def coveredByRepeater (a : BusAddr) : Bool → List Event → Bool
  | _, [] => true
  | rep, e :: es => (!e.accesses a || rep) && coveredByRepeater a (repAfter rep e) es

/-- REP after a list of events. -/
def repAfterAll (rep : Bool) (es : List Event) : Bool := es.foldl repAfter rep

/-- Is a WithRepeater bracket open after an event (R220)? It opens with the repeater-on call and closes with the repeater-off
call, whatever they answer. -/
def bracketAfter (inside : Bool) : Event → Bool
  | .setRepeater b _ => b
  | .busWrite _ _ _ _ => inside
  | .busRead _ _ _ _ => inside
  | .hook _ _ => inside
  | .delay _ => inside

/-- None of these events inside a WithRepeater bracket accesses `a`, `inside` telling whether one is open before the first. -/
def quietInBrackets (a : BusAddr) : Bool → List Event → Bool
  | _, [] => true
  | inside, e :: es => (!e.accesses a || !inside) && quietInBrackets a (bracketAfter inside e) es

/-- Does the running command stand inside a WithRepeater bracket? -/
def insideBracket (s : State) : Bool := s.run.any fun r => r.phase.inBracket

/-- Did the environment fail this event? -/
def Event.failed : Event → Bool
  | .busWrite _ _ _ ok => !ok
  | .busRead _ _ _ bytes => bytes.isNone
  | .setRepeater _ ok => !ok
  | .hook _ _ => false
  | .delay _ => false

/-! ### Shared contexts (R348) -/

/-- The invariant of a shared context that every move, attach and detach keeps: at least one instance is attached; an attached
instance holds the bus lock exactly while it runs a command or after its model fault. -/
structure ContextInv (b : SharedBus) : Prop where
  live : ∃ k s, b.instanceAt k = some s
  /-- the lock's holder has attached to this context -/
  attached : ∀ k, b.owner = some k → k < b.instances.length
  owner : ∀ k s, b.instanceAt k = some s → (b.owner = some k ↔ (s.run.isSome = true ∨ s.faultReason.isSome = true))

end Sys2Proof.Machine
end

