-- ==== Sys2Proof/Certificates/Slice0/Obligations.lean ====
section
/-! DEFINITION. The statements for the provers. First the spec's tables and formulas as the statements use them, written
from the rules and not from the model's functions; then one definition a statement. -/

namespace Sys2Proof.Claims

open Sys2Proof.Machine

/-! ### What the statements use -/

/-- R92 and R100: the "must be 0" bits of W0 and the number of operand words of each opcode; none for an opcode outside the
map. -/
def formatOf (opc : Nat) : Option (Word × Nat) :=
  match opc with
  | 0x01 | 0x02 | 0x08 | 0x09 => some (0x00FFFFFF, 1)
  | 0x03 => some (0x00FFFFC0, 1)
  | 0x04 | 0x05 => some (0x00FFFF00, 1)
  | 0x06 | 0x07 => some (0x00FFFFFF, 2)
  | 0x0A => some (0x00FFFFF8, 2)
  | 0x10 | 0x11 => some (0x00FFFFFE, 1)
  | 0x20 | 0x21 | 0x23 | 0x24 => some (0x00FFFFFF, 0)
  | 0x22 => some (0x00FFF0F8, 2)
  | _ => none

/-- R101: the seven causes that make a command illegal. -/
def IllegalCommand (c : Config) (w0 : Word) (ops : List Word) : Prop :=
  match formatOf (w0.toNat / 2 ^ 24) with
  | none => True
  | some (mustBe0, count) =>
    w0 &&& mustBe0 ≠ 0 ∨ ops.length ≠ count ∨
    (w0.toNat / 2 ^ 24 = 0x10 ∧ ∃ w ∈ ops, w.toNat / 2 ^ 24 ≠ 0) ∨
    (w0.toNat / 2 ^ 24 = 0x04 ∧ c.cnrTables.length ≤ w0.toNat % 2 ^ 8) ∨
    (w0.toNat / 2 ^ 24 = 0x05 ∧ c.pwlModels.length ≤ w0.toNat % 2 ^ 8) ∨
    (w0.toNat / 2 ^ 24 = 0x0A ∧ w0.toNat % 2 ^ 3 ≠ 2 ∧ w0.toNat % 2 ^ 3 ≠ 3)

/-- R100: the number of result words of a command. A ROM entry ends the command it runs in, and those have none. -/
def resultCount : Instr → Nat
  | .log2 _ | .log10 _ | .sext _ _ | .tlookup _ _ | .pwl _ _ | .percalc _ _ | .rssiT _ _ | .rssiS _ | .cnrS _ _ _ => 1
  | .cnrT _ | .getState => 2
  | .readStatus => 5
  | .setBits _ _ _ _ | .setBankedBits _ _ _ _ _ | .init | .sleep | .setFrontend _ _ _ _ => 0
  | .endSeq | .wr _ _ | .wrv _ _ | .delay _ | .pollz _ | .rdsel _ | .hook _ _ => 0

/-- R95: the six status codes. -/
def statusNumber : Status → Nat
  | .ok => 0x00
  | .busError => 0x01
  | .hardwareIoError => 0x02
  | .tunerInitError => 0x03
  | .unsupportedSystem => 0x04
  | .illegalCommand => 0x05

/-- There is a block (R338), it is between commands and not faulted, and it may take the next command of its port. -/
def Ready (s : State) : Prop := s.faultReason = none ∧ s.refused = false ∧ s.run = none ∧ s.lock ≠ .other

/-- The state once a command has ended with a response and nothing else changed. -/
def ended (s : State) (st : Status) (results : List Word) : State :=
  { s with resp := some { status := st, results := results }, run := none, lock := .free }

/-- The state once a command has ended in a model fault of a block that was not faulted, nothing else changed (R336). -/
def faultedWith (s : State) (r : FaultReason) : State :=
  { s with faultReason := some r, run := none, resp := none, lock := .held }

/-- Is `n` in the i32 range (R11)? -/
def InI32 (n : Int) : Prop := -2 ^ 31 ≤ n ∧ n < 2 ^ 31

/-- `n / d` rounded to the nearest integer, halves up (R176, R177). -/
def roundedQuotient (n d : Nat) : Nat := (2 * n + d) / (2 * d)

/-- `a / b` truncated toward zero, as R10 defines tdiv by absolute values. -/
def truncatedQuotient (a b : Int) : Int :=
  if (a < 0) = (b < 0) then (a.natAbs / b.natAbs : Nat) else -(a.natAbs / b.natAbs : Nat)

/-- R170: the segment is the first of the model that contains `v`. -/
def FirstSegment (model : List PwlSegment) (v : Int) (g : PwlSegment) : Prop :=
  ∃ before after, model = before ++ g :: after ∧ (g.lo.toInt ≤ v ∧ v < g.hi.toInt) ∧
    ∀ h ∈ before, ¬(h.lo.toInt ≤ v ∧ v < h.hi.toInt)

/-- R295: the range is the first of RSSI_T_RANGES that contains `f`. -/
def FirstRange (ranges : List RssiRange) (f : Word) (k : RssiRange) : Prop :=
  ∃ before after, ranges = before ++ k :: after ∧ (k.fLo.toNat ≤ f.toNat ∧ f.toNat < k.fHi.toNat) ∧
    ∀ h ∈ before, ¬(h.fLo.toNat ≤ f.toNat ∧ f.toNat < h.fHi.toNat)

/-- R167: `j` is the largest index that is 0 or has a code ≥ `q`. -/
def LookupIndex (tab : List CnrEntry) (q : Word) (j : Nat) : Prop :=
  j < tab.length ∧ (j = 0 ∨ ∃ e, tab[j]? = some e ∧ q.toNat ≤ e.code.toNat) ∧
    ∀ k e, j < k → tab[k]? = some e → e.code.toNat < q.toNat

/-- R300 (log 14): the id a selection gives at a symbol rate: that of the last listed threshold reached, else the base. -/
def Selected (sel : CnrSelect) (symrate : Word) (id : Nat) : Prop :=
  (id = sel.base ∧ ∀ p ∈ sel.thresholds, symrate.toNat < p.1.toNat) ∨
  (∃ before thr after, sel.thresholds = before ++ (thr, id) :: after ∧ thr.toNat ≤ symrate.toNat ∧
    ∀ p ∈ after, symrate.toNat < p.1.toNat)

/-- R298, case by case. -/
def relativeScale (lo hi cnr : Int) : Int :=
  if cnr ≤ lo then 0 else if hi ≤ cnr then 100 else (cnr - lo) * 100 / (hi - lo)

/-! Bus traffic -/

/-- The first byte an answer carries. -/
def byte0 : Answer → Byte
  | .ok b _ _ _ => b
  | .err => 0

/-- The `k`-th answer the environment has listed, `err` where there is none. -/
def answerAt (s : State) (k : Nat) : Answer := (s.env[k]?).getD .err

/-- The first `n` answers are listed and are all `ok`. -/
def AllOk (s : State) (n : Nat) : Prop := ∀ k < n, ∃ a, s.env[k]? = some a ∧ a.isOk = true

/-- How many answers a masked access takes: one for the bank select of a banked access, none, one or two for the mask 0x00,
0xFF or another (R130, R131). -/
def accessAnswers (bank : Option Byte) (mask : Byte) : Nat :=
  (if bank.isSome then 1 else 0) + (if mask = 0x00 then 0 else if mask = 0xFF then 1 else 2)

/-- The bus address of a target (R63). -/
def addressOf (c : Config) (tgt : Target) : BusAddr := if tgt = .demod then c.demodAddr else c.tunerAddr

/-- The events of a masked access whose primitives all succeed, `old` being the byte the register reads as (R130, R131). -/
def accessEvents (c : Config) (tgt : Target) (bank : Option Byte) (reg val mask old : Byte) : List Event :=
  let a := addressOf c tgt
  (match bank with
    | some b => [.busWrite a c.bankSelectReg [b] true]
    | none => []) ++
  (if mask = 0x00 then []
   else if mask = 0xFF then [.busWrite a reg [val] true]
   else [.busRead a reg 1 (some [old]), .busWrite a reg [(val &&& mask) ||| (old &&& ~~~mask)] true])

/-- The event as it is recorded when the environment fails it. -/
def failedEvent : Event → Event
  | .busWrite a r bytes _ => .busWrite a r bytes false
  | .busRead a r n _ => .busRead a r n none
  | .setRepeater b _ => .setRepeater b false
  | .hook id v => .hook id v
  | .delay ms => .delay ms

/-- The index of the answer a masked access reads its byte from, its first answer being number `at`. -/
def readAnswer (start : Nat) (bank : Option Byte) : Nat := start + (if bank.isSome then 1 else 0)

/-- SETBITS without a bank, SETBANKEDBITS with one. -/
def bitFieldCommand (tgt : Target) (bank : Option Byte) (reg val mask : Byte) : Instr :=
  match bank with
  | none => .setBits tgt reg val mask
  | some b => .setBankedBits tgt b reg val mask

/-- The byte R105 gives a WRV source, where its valid bit is 1. -/
def SourceByte (c : Config) (r : Run) (src : Source) (v : Byte) : Prop :=
  match src with
  | .freqw0 => ∃ w, r.freqw = some w ∧ v.toNat = w.toNat % 256
  | .freqw1 => ∃ w, r.freqw = some w ∧ v.toNat = w.toNat / 256 % 256
  | .freqw2 => ∃ w, r.freqw = some w ∧ v.toNat = w.toNat / 65536
  | .bandp k => ∃ b, r.bwsel = some b ∧ (c.bandpTable.row b)[k.toNat]? = some v
  | .tunerbw k => ∃ b, r.bwsel = some b ∧ (c.tunerbwTable.row b)[k.toNat]? = some v
  | .clockMode => ∃ t, r.tstuple = some t ∧ v = t.clockMode
  | .dutyMode => ∃ t, r.tstuple = some t ∧ v = t.dutyMode
  | .period => ∃ t, r.tstuple = some t ∧ v = t.period
  | .ifClockSelect => ∃ t, r.tstuple = some t ∧ v = t.ifClockSelect

/-- R105: the valid bit the source needs is 0. -/
def SourceUnset (r : Run) (src : Source) : Prop :=
  match src with
  | .freqw0 | .freqw1 | .freqw2 => r.freqw = none
  | .bandp _ | .tunerbw _ => r.bwsel = none
  | .clockMode | .dutyMode | .period | .ifClockSelect => r.tstuple = none

/-- The events of an entry whose primitives all succeed: an access with the entry's byte (R200, R203, R205), or a read
(R200, R207, R208). -/
def EntryEvents (s : State) (r : Run) (a : Access) (i : Instr) (events : List Event) : Prop :=
  let addr := addressOf s.cfg a.tgt
  let byte := byte0 (answerAt s (readAnswer 0 a.bank))
  (∃ v, (i = .wr a v ∨ ∃ src, i = .wrv a src ∧ SourceByte s.cfg r src v) ∧
    events = accessEvents s.cfg a.tgt a.bank a.reg v a.mask byte) ∨
  ((i = .pollz a ∨ (i = .rdsel a ∧ a.mask ≠ 0)) ∧
    events = (match a.bank with | some b => [.busWrite addr s.cfg.bankSelectReg [b] true] | none => []) ++
      [.busRead addr a.reg 1 (some [byte])])

/-- The running command goes on at the next entry. -/
def nextEntry (r : Run) : Option Run := some { r with index := r.index + 1 }

/-! READ_STATUS -/

/-- R64: the value of a multi-byte field, byte by byte. -/
def assembled (o : ByteOrder) (bytes : List Byte) : Nat :=
  ((List.range bytes.length).map fun i =>
    ((bytes[i]?).getD 0).toNat * 2 ^ (8 * (match o with | .be => bytes.length - 1 - i | .le => i))).sum

/-- R67: the value of a field whose bytes are read. -/
def fieldValue (c : Config) (f : RegField) (bytes : List Byte) : Word :=
  (BitVec.ofNat 32 (assembled c.mbOrder bytes) >>> f.shift.toNat) &&& f.mask

/-- R67: the primitives that read a field, the answers left out. -/
def fieldReads (c : Config) (f : RegField) : List Event :=
  let a := addressOf c f.tgt
  (match f.bank with
    | some b => [.busWrite a c.bankSelectReg [b] false]
    | none => []) ++ [.busRead a f.reg f.len none]

/-- R290: the fields a READ_STATUS reads, in order. -/
def statusReads (c : Config) (sy : System) (full : Bool) : List RegField :=
  (c.lockCond.get sy).map Prod.fst ++ [c.agcField.get sy] ++
  (match sy with
    | .isdbT => (if full then [c.snrFieldT] else []) ++ [c.errcntField, c.wincntField]
    | .isdbS => if full then c.symrateField.toList ++ [c.cnrFieldS] else []
    | .isdbS3 => if full then c.symrateField.toList ++ [c.cnrFieldS3] else [])

/-- The bytes of the reads among some events, in order. -/
def readings (es : List Event) : List (List Byte) :=
  es.filterMap fun
    | .busRead _ _ _ bytes => bytes
    | .busWrite _ _ _ _ => none
    | .setRepeater _ _ => none
    | .hook _ _ => none
    | .delay _ => none

/-- The values a READ_STATUS with these events has read, in order. -/
def statusValues (c : Config) (sy : System) (full : Bool) (es : List Event) : List Word :=
  List.zipWith (fieldValue c) (statusReads c sy full) (readings es)

/-- R293: the words are the command's results, or they are not available: the valid bit is clear, the words are 0, and the
command does not complete with OK. -/
def Metric (s : State) (i : Instr) (valid : Bool) (ws : List Word) : Prop :=
  (valid = true ∧ exec i s = .next (ended s .ok ws)) ∨
  (valid = false ∧ (∀ w ∈ ws, w = 0) ∧ ∀ vs, exec i s ≠ .next (ended s .ok vs))

/-- R290: the CNR of a satellite system: read at full lock only, the code being the last value read, the symbol rate the one
before it or 0. -/
def SatelliteCnr (s : State) (sys : BitVec 3) (full : Bool) (values : List Word) (valid : Bool) (r3 : Word) : Prop :=
  (full = false → valid = false ∧ r3 = 0) ∧
  (full = true → ∃ code rate, values[values.length - 1]? = some code ∧
    (if s.cfg.symrateField.isSome then values[values.length - 2]? = some rate else rate = 0) ∧
    Metric s (.cnrS sys code rate) valid [r3])

/-! Shared contexts -/

/-- What is an instance's own and not the shared context's (R348): the configuration, the lock and the count of free answers
blanked. -/
def ownPart (c : Config) (s : State) : State := { s with cfg := c, lock := .free, draws := 0 }

/-! A SET_FRONTEND request -/

/-- The number of the system a request tunes to, after the redirect of R256. -/
def targetNumber (c : Config) (sys : BitVec 3) (sid : Word) : Nat :=
  if sys.toNat = 2 ∧ (sid = c.s3StreamIdA ∨ sid = c.s3StreamIdB) then 3 else sys.toNat

/-- R257: the causes of UNSUPPORTED_SYSTEM; T_FREQ_BITS is 20 unless the configuration gives another value (R6). -/
def Unsupported (s : State) (sys : BitVec 3) (bw : BitVec 4) (freq sid : Word) : Prop :=
  let n := targetNumber s.cfg sys sid
  (n ≠ 1 ∧ n ≠ 2 ∧ n ≠ 3) ∨
  (n = 1 ∧ bw.toNat ≠ 6 ∧ bw.toNat ≠ 7 ∧ bw.toNat ≠ 8) ∨
  (n = 1 ∧ 2 ^ s.cfg.tFreqBits ≤ freq.toNat) ∨
  (n ≠ 1 ∧ 2 ^ 24 ≤ (freq.toNat + 2) / 4) ∨
  s.ds = .unknown

/-- The number of a system (R92). -/
def systemNumber : System → Nat
  | .isdbT => 1
  | .isdbS => 2
  | .isdbS3 => 3

/-- The MHz of a bandwidth. -/
def megahertz : Bandwidth → Nat
  | .mhz6 => 6
  | .mhz7 => 7
  | .mhz8 => 8

/-- R255: BWSEL is the request's bandwidth for IsdbT, and not valid for a satellite system. -/
def BwselOf (t : System) (bw : BitVec 4) (b : Option Bandwidth) : Prop :=
  (t = .isdbT ∧ ∃ m, b = some m ∧ megahertz m = bw.toNat) ∨ (t ≠ .isdbT ∧ b = none)

/-- R222: the frequency word. Where it does not fit FREQW's 24 bits, which R222 does not provide for, its low 24 bits: the
model's choice (log 15). -/
def frequencyWord (t : System) (freq : Word) : BitVec 24 :=
  BitVec.ofNat 24 (if t = .isdbT then freq.toNat else (freq.toNat + 2) / 4)

/-- A command's first run record: entry index 0, no valid bit but BWSEL's (R31, R39). -/
def freshRun (p : Phase) (b : Option Bandwidth) : Run :=
  { phase := p, index := 0, freqw := none, bwsel := b, tstuple := none }

/-- A run that goes on in another sequence. -/
def inPhase (r : Run) (p : Phase) : Option Run := some { r with phase := p, index := 0 }

/-- The state a same-system tune may be in: on R255's case 1 (R261 item 1). -/
def SameSystemPhase : Phase → Prop
  | .tuneSame req => req.same = true
  | .tuneFreq req => req.same = true
  | _ => False

end Sys2Proof.Claims

open Sys2Proof Sys2Proof.Machine Sys2Proof.Claims

/-! ## Encoding -/

/-- R91 to R93, R100, R103 to R105: decoding an instruction's words gives the instruction back, with every operand at every
value. -/
def Obligations.DecodeUndoesEncode : Prop := ∀ i : Instr, decode (encode i) = .ok i

/-- R102: every command word and ROM entry that decodes is the one encoding of its instruction. -/
def Obligations.EncodeUndoesDecode : Prop := ∀ (e : Encoding) (i : Instr), decode e = .ok i → encode i = e

/-- Words written out in 30_encoding R108, R109 and in 95_test_vectors section 8 decode to what they stand for. -/
def Obligations.WrittenOutWordsDecode : Prop :=
  decodeCommand 0x22000601 [0x0007C4D6, 0] = .ok (.setFrontend 1 6 509142 0) ∧
  decodeCommand 0x0300000C [0x800] = .ok (.sext 12 0x800) ∧
  decodeCommand 0x0A000003 [0x4B0, 0] = .ok (.cnrS 3 1200 0) ∧
  decodeCommand 0x10000001 [0x00040103] = .ok (.setBits .tuner 0x04 0x01 0x03) ∧
  decodeEntry 0x1210A501FF000000 =
    .ok (.wr { bank := some 0x10, tgt := .demod, reg := 0xA5, mask := 0xFF } 0x01) ∧
  decodeEntry 0x3000000000000014 = .ok (.delay 20) ∧
  decodeEntry 0x6000000100000002 = .ok (.hook 2 1)

/-- R101, R334: an illegal command ends with ILLEGAL_COMMAND, no result word, no event and no state change, and only an
illegal command ends so. -/
def Obligations.IllegalCommandsAndNoOthers : Prop :=
  ∀ (s : State) (c : Command) (rest : List Command), Ready s → s.port = c :: rest →
    (IllegalCommand s.cfg c.w0 c.ops → step s = .next (ended { s with port := rest } .illegalCommand [])) ∧
    (∀ t, step s = .next t → t.resp = some { status := .illegalCommand, results := [] } →
      IllegalCommand s.cfg c.w0 c.ops)

/-! ## Steps -/

/-- R90, R200: a step runs the instruction it finds. Around `exec` a step adds, for a command, that it is taken from the
port, that no response stands, and that the bus lock is taken (R348); for a ROM entry, nothing. -/
def Obligations.StepRunsTheDecodedInstruction : Prop :=
  (∀ (s : State) (c : Command) (rest : List Command) (i : Instr), Ready s → s.port = c :: rest →
    decodeCommand c.w0 c.ops = .ok i → step s = exec i { s with port := rest, resp := none, lock := .held }) ∧
  (∀ (s : State) (r : Run) (e : RomWord) (i : Instr), s.faultReason = none → s.refused = false → s.run = some r →
    (s.cfg.seqRom.entries (r.phase.sequence s.cfg))[r.index]? = some e → decodeEntry e = .ok i → step s = exec i s)

/-- R336: a model fault records its reason, ends the command with no event and no response, keeps every other field and the
bus lock, and the block is stuck from then on; a later fault does not overwrite the first reason. -/
def Obligations.ModelFaultSticks : Prop :=
  (∀ (i : Instr) (s t : State) (x : FaultReason), s.faultReason = none → exec i s = .next t → t.faultReason = some x →
    t = faultedWith s x ∧ step t = .fault (.stuck x)) ∧
  (∀ (s : State) (x : FaultReason), s.faultReason = some x → step s = .fault (.stuck x)) ∧
  (∀ (s : State) (x y : FaultReason), s.faultReason = some x → (raiseFault y s).faultReason = some x)

/-- R337, second column: which instruction can raise which reason; READ_STATUS and every other one raise none. -/
def Obligations.FaultReasonsByInstruction : Prop :=
  ∀ (i : Instr) (s t : State) (x : FaultReason), s.faultReason = none → exec i s = .next t → t.faultReason = some x →
    match x with
    | .pwlNoSegment => (∃ id v, i = .pwl id v) ∨ (∃ a f, i = .rssiT a f)
    | .resultRange => (∃ id v, i = .pwl id v) ∨ (∃ a f, i = .rssiT a f) ∨ (∃ a, i = .rssiS a) ∨ (∃ a, i = .cnrT a)
    | .perDivZero => ∃ e, i = .percalc e 0
    | .perOverflow => ∃ e w, i = .percalc e w ∧ w ≠ 0
    | .rssiFreqNoRange => ∃ a f, i = .rssiT a f ∧ ∀ k ∈ s.cfg.rssiTRanges,
        ¬(k.fLo.toNat ≤ f.toNat ∧ f.toNat < k.fHi.toNat)
    | .wrvSourceUnset => ∃ a src r, i = .wrv a src ∧ s.run = some r ∧ SourceUnset r src

/-- R94, R95, R100, R330 to R335: the word R0 of a response; which instruction can end a command with which status, how many
result words the response has, and that they are all 0 when the status is not OK. (A block that runs a command has no response yet.) In a
good state only INIT's cold boot ends with TUNER_INIT_ERROR. -/
def Obligations.StatusesByInstruction : Prop :=
  (∀ r : Response, r.r0.extractLsb' 8 24 = 0 ∧ r.r0.toNat = statusNumber r.status) ∧
  (∀ (s t : State) (ws : List Word), GoodState s → s.resp = none → step s = .next t →
    t.resp = some { status := .tunerInitError, results := ws } → ∃ r, s.run = some r ∧ r.phase = .initTuner) ∧
  ∀ (i : Instr) (s t : State) (st : Status) (ws : List Word), s.resp = none → exec i s = .next t →
    t.resp = some { status := st, results := ws } →
    (st = .ok → ws.length = resultCount i) ∧
    (st ≠ .ok → ws = List.replicate (if st = .illegalCommand then 0 else resultCount i) 0) ∧
    (st = .busError → ∃ tgt bank reg val mask, i = bitFieldCommand tgt bank reg val mask) ∧
    (st = .hardwareIoError → i = .readStatus ∨ i.isCommand = false) ∧
    (st = .tunerInitError → ∃ a, i = .pollz a) ∧
    (st = .unsupportedSystem → ∃ sys bw freq sid, i = .setFrontend sys bw freq sid) ∧
    (st = .illegalCommand → (∃ id q, i = .tlookup id q ∧ s.cfg.cnrTables.length ≤ id.toNat) ∨
      (∃ id v, i = .pwl id v ∧ s.cfg.pwlModels.length ≤ id.toNat) ∨
      (∃ sys code rate, i = .cnrS sys code rate ∧ sys.toNat ≠ 2 ∧ sys.toNat ≠ 3))

/-! ## Reset and configuration -/

/-- R45, R361: the fields after attach, for every configuration; the reset state is attach. -/
def Obligations.ResetValues : Prop :=
  (∀ c : Config, (State.attach c).cfg = c ∧ (State.attach c).ds = .unknown ∧ (State.attach c).sys = .unknown ∧
    (State.attach c).sub = .none ∧ (State.attach c).rep = false ∧ (State.attach c).tunedFreq = 0 ∧
    (State.attach c).tunedBw = 0 ∧ (State.attach c).tunedValid = false ∧ (State.attach c).faulted = false ∧
    (State.attach c).faultReason = none ∧ (State.attach c).run = none ∧ (State.attach c).history = []) ∧
  (∃ c, State.reset = State.attach c)

/-- R201: a SEQ_ROM is well formed exactly when each sequence is entries that decode and are no END, then one END; POLLZ only
in the cold boot, RDSEL only in ids 2 to 7 with a mask whose every index names a tuple, targets as the sequence's. Item 7 is
read for the entries that have a target (log 21). -/
def Obligations.SeqRomWellFormedExactly : Prop :=
  ∀ c : Config, seqRomWf c = true ↔ ∀ id : SeqId, ∃ is : List Instr,
    (c.seqRom.entries id).mapM decodeEntry = .ok (is ++ [.endSeq]) ∧
    ∀ i ∈ is, i ≠ .endSeq ∧
      (∀ a v, i = .wr a v → a.tgt = id.target) ∧
      (∀ a src, i = .wrv a src → a.tgt = id.target) ∧
      (∀ a, i = .pollz a → a.tgt = id.target ∧ id.number = 1) ∧
      (∀ a, i = .rdsel a → a.tgt = id.target ∧ 2 ≤ id.number ∧ id.number ≤ 7 ∧ a.mask ≠ 0 ∧
        ∀ b : Byte, ∀ k, (k = (b &&& a.mask).toNat / 2 ^ ctz a.mask) → k < c.tsclkTable.length)

/-! ## Numeric commands (41_numeric) -/

/-- R150: LOG2 for every operand. With count the index of the most significant bit, the result is 100 × count plus the
table's entry for the five bits below it. -/
def Obligations.Log2Value : Prop :=
  ∀ (s : State) (x : Word), ∃ frac : Byte,
    exec (.log2 x) s = .next (ended s .ok [BitVec.ofNat 32 (100 * Nat.log2 x.toNat + frac.toNat)]) ∧
    s.cfg.log2FracTable[x.toNat * 32 / 2 ^ Nat.log2 x.toNat % 32]? = some frac

/-- R152: LOG2 of 2^k is exactly 100 × k (entry 0 of the table is 0: R151). -/
def Obligations.Log2OfPowersOfTwo : Prop :=
  ∀ (s : State) (k : Nat), s.cfg.log2FracTable[0] = 0 → k ≤ 31 →
    exec (.log2 (BitVec.ofNat 32 (2 ^ k))) s = .next (ended s .ok [BitVec.ofNat 32 (100 * k)])

/-- R153: with the default table, LOG2 is non-decreasing over the whole u32 range, and at most 3198 (R150). R153's argument
is about that table; a configuration may hold another. -/
def Obligations.Log2NonDecreasing : Prop :=
  ∀ (s : State) (x y : Word), s.cfg.log2FracTable = defaultLog2FracTable → x.toNat ≤ y.toNat →
    ∃ a b : Word, exec (.log2 x) s = .next (ended s .ok [a]) ∧ exec (.log2 y) s = .next (ended s .ok [b]) ∧
      a.toNat ≤ b.toNat ∧ b.toNat ≤ 3198

/-- R155: LOG10 is LOG2's result times 100, divided by 332 and rounded. -/
def Obligations.Log10FromLog2 : Prop :=
  ∀ (s : State) (x : Word), ∃ a : Word, exec (.log2 x) s = .next (ended s .ok [a]) ∧
    exec (.log10 x) s = .next (ended s .ok [BitVec.ofNat 32 ((100 * a.toNat + 166) / 332)])

/-- R156: with the default table (see R153), LOG10 is non-decreasing. -/
def Obligations.Log10NonDecreasing : Prop :=
  ∀ (s : State) (x y : Word), s.cfg.log2FracTable = defaultLog2FracTable → x.toNat ≤ y.toNat →
    ∃ a b : Word, exec (.log10 x) s = .next (ended s .ok [a]) ∧ exec (.log10 y) s = .next (ended s .ok [b]) ∧
      a.toNat ≤ b.toNat

/-- R160: SEXT of a width from 1 to 31 is the low bits read as two's complement; of any other width the value itself. -/
def Obligations.SextReadsTwosComplement : Prop :=
  ∀ (s : State) (w : BitVec 6) (v : Word), ∃ x : Word, exec (.sext w v) s = .next (ended s .ok [x]) ∧
    (1 ≤ w.toNat ∧ w.toNat ≤ 31 → x.toInt = Int.bmod v.toNat (2 ^ w.toNat)) ∧
    (w.toNat = 0 ∨ 32 ≤ w.toNat → x = v)

/-- R167 (with R165): for a well-formed table TLOOKUP returns the value at the largest index that is 0 or has a code ≥ the
query; that index does not increase with the query, and moves by at most one when the query moves by one. -/
def Obligations.TlookupIndex : Prop :=
  ∀ (s : State) (id : Byte) (tab : List CnrEntry), s.cfg.cnrTables[id.toNat]? = some tab → cnrTableWf tab = true →
    ∃ j : Word → Nat,
      (∀ q, LookupIndex tab q (j q) ∧ ∃ e, tab[j q]? = some e ∧ exec (.tlookup id q) s = .next (ended s .ok [e.value])) ∧
      (∀ p q : Word, p.toNat ≤ q.toNat → j q ≤ j p) ∧
      (∀ p q : Word, q.toNat = p.toNat + 1 → j p ≤ j q + 1)

/-- R170: PWL takes the first segment that contains the value; outside every segment, or out of the i32 range, it faults. -/
def Obligations.PwlFirstSegment : Prop :=
  ∀ (s : State) (id : Byte) (v : Word) (model : List PwlSegment), s.cfg.pwlModels[id.toNat]? = some model →
    pwlModelWf model = true → s.faultReason = none →
    (∀ g n, FirstSegment model v.toInt g →
      n = g.ic.toInt - truncatedQuotient ((v.toInt - g.lo.toInt) * g.num.toInt) g.den.toInt →
      (InI32 n → ∃ w : Word, w.toInt = n ∧ exec (.pwl id v) s = .next (ended s .ok [w])) ∧
      (¬InI32 n → exec (.pwl id v) s = .next (faultedWith s .resultRange))) ∧
    ((∀ g ∈ model, ¬(g.lo.toInt ≤ v.toInt ∧ v.toInt < g.hi.toInt)) →
      exec (.pwl id v) s = .next (faultedWith s .pwlNoSegment))

/-- R175: PERCALC's outcome for every pair of operands. -/
def Obligations.PercalcOutcome : Prop :=
  ∀ (s : State) (e w : Word), s.faultReason = none →
    let overflow := 2 ^ 32 ≤ e.toNat * 1000 ∨ 2 ^ 32 ≤ e.toNat * 1000 % w.toNat * 1000 ∨
      2 ^ 32 ≤ roundedQuotient (e.toNat * 1000000) w.toNat
    (w = 0 → exec (.percalc e w) s = .next (faultedWith s .perDivZero)) ∧
    (w ≠ 0 → overflow → exec (.percalc e w) s = .next (faultedWith s .perOverflow)) ∧
    (w ≠ 0 → ¬overflow →
      exec (.percalc e w) s = .next (ended s .ok [BitVec.ofNat 32 (roundedQuotient (e.toNat * 1000000) w.toNat)]))

/-- R176: when PERCALC does not fault, its result is the exact quotient rounded to nearest, halves up. -/
def Obligations.PercalcRoundsToNearest : Prop :=
  ∀ (s t : State) (e w : Word), s.faultReason = none → exec (.percalc e w) s = .next t → t.faultReason = none →
    ∃ q : Word, t = ended s .ok [q] ∧ q.toNat = (2 * e.toNat * 1000000 + w.toNat) / (2 * w.toNat)

/-! ## Metric commands (44_status) -/

/-- R295: RSSI_T's outcome for every pair of operands. -/
def Obligations.RssiTOutcome : Prop :=
  ∀ (s : State) (agc f : Word), s.faultReason = none →
    ((∀ k ∈ s.cfg.rssiTRanges, ¬(k.fLo.toNat ≤ f.toNat ∧ f.toNat < k.fHi.toNat)) →
      exec (.rssiT agc f) s = .next (faultedWith s .rssiFreqNoRange)) ∧
    (∀ k, FirstRange s.cfg.rssiTRanges f k →
      let v : Nat := agc.toNat * s.cfg.rssiTScale.toNat
      (2 ^ 31 ≤ v → exec (.rssiT agc f) s = .next (faultedWith s .resultRange)) ∧
      (∀ model, v < 2 ^ 31 → s.cfg.pwlModels[k.model.toNat]? = some model → pwlModelWf model = true →
        ((∀ g ∈ model, ¬(g.lo.toInt ≤ v ∧ (v : Int) < g.hi.toInt)) →
          exec (.rssiT agc f) s = .next (faultedWith s .pwlNoSegment)) ∧
        (∀ g n, FirstSegment model v g →
          n = g.ic.toInt - truncatedQuotient ((v - g.lo.toInt) * g.num.toInt) g.den.toInt →
          (InI32 n ∧ InI32 (n + s.cfg.rssiTCal.toInt) →
            ∃ w : Word, w.toInt = n + s.cfg.rssiTCal.toInt ∧ exec (.rssiT agc f) s = .next (ended s .ok [w])) ∧
          (¬InI32 n ∨ ¬InI32 (n + s.cfg.rssiTCal.toInt) →
            exec (.rssiT agc f) s = .next (faultedWith s .resultRange)))))

/-- R296, R177: RSSI_S subtracts the rounded quotient from the offset; out of the i32 range it faults. -/
def Obligations.RssiSOutcome : Prop :=
  ∀ (s : State) (agc : Word), s.cfg.rssiSDiv ≠ 0 → s.faultReason = none →
    let n : Int := s.cfg.rssiSOffset.toInt - (roundedQuotient agc.toNat s.cfg.rssiSDiv.toNat : Nat)
    (InI32 n → ∃ w : Word, w.toInt = n ∧ exec (.rssiS agc) s = .next (ended s .ok [w])) ∧
    (¬InI32 n → exec (.rssiS agc) s = .next (faultedWith s .resultRange))

/-- R297, R298: CNR_T scales and offsets LOG10's result, and remaps it to the relative scale. -/
def Obligations.CnrTOutcome : Prop :=
  ∀ (s : State) (snr : Word), s.faultReason = none → ∃ a : Word, exec (.log10 snr) s = .next (ended s .ok [a]) ∧
    let cnr : Int := s.cfg.cnrTMul.toInt * a.toNat + s.cfg.cnrTOff.toInt
    (InI32 cnr → ∃ w rel : Word, w.toInt = cnr ∧
      rel.toInt = relativeScale s.cfg.cnrRelLo.toInt s.cfg.cnrRelHi.toInt cnr ∧
      exec (.cnrT snr) s = .next (ended s .ok [w, rel])) ∧
    (¬InI32 cnr → exec (.cnrT snr) s = .next (faultedWith s .resultRange))

/-- R298: Rel by its three cases; non-decreasing in cnr and always 0 to 100; a configuration with HI ≤ LO is refused. -/
def Obligations.RelativeScaleClamped : Prop :=
  (∀ c : Config, configWf c = true → ∀ m n : Int,
    relScale c n = relativeScale c.cnrRelLo.toInt c.cnrRelHi.toInt n ∧ 0 ≤ relScale c n ∧ relScale c n ≤ 100 ∧
    (m ≤ n → relScale c m ≤ relScale c n)) ∧
  (∀ c : Config, c.cnrRelHi.toInt ≤ c.cnrRelLo.toInt → attach c = .refused (.illFormedConfig .refusedAtAttach))

/-- R299, R300: in a well-formed configuration CNR_S completes with the value that the scan of R165 gives on the table its
system selects (more than one threshold: log 14), as TLOOKUP gives it; with the default selection, table 0 for IsdbS and table 1
for IsdbS3; with a threshold, one table below and one at or above it. -/
def Obligations.CnrSIsTlookup : Prop :=
  ∀ (s : State) (sys : BitVec 3) (code symrate : Word) (sel : CnrSelect), configWf s.cfg = true →
    (sys = 2 ∧ sel = s.cfg.cnrSelectS) ∨ (sys = 3 ∧ sel = s.cfg.cnrSelectS3) →
    (∃ id tab j e, Selected sel symrate id ∧ s.cfg.cnrTables[id]? = some tab ∧ LookupIndex tab code j ∧
      tab[j]? = some e ∧ exec (.cnrS sys code symrate) s = .next (ended s .ok [e.value])) ∧
    (∀ id, Selected sel symrate id → id < 256 →
      exec (.cnrS sys code symrate) s = exec (.tlookup (BitVec.ofNat 8 id) code) s) ∧
    (sys = 2 → sel = defaultCnrSelectS → exec (.cnrS sys code symrate) s = exec (.tlookup 0 code) s) ∧
    (sys = 3 → sel = defaultCnrSelectS3 → exec (.cnrS sys code symrate) s = exec (.tlookup 1 code) s) ∧
    (∀ (thr : Word) (below above : Nat), sel = { base := below, thresholds := [(thr, above)] } →
      (if symrate.toNat < thr.toNat then below else above) < 256 →
      exec (.cnrS sys code symrate) s =
        exec (.tlookup (BitVec.ofNat 8 (if symrate.toNat < thr.toNat then below else above)) code) s)

/-! ## Bit-field commands (40_bitfield) -/

/-- R130, R131, R220: SETBITS and SETBANKEDBITS when every primitive succeeds: exactly the access's events, inside the
repeater bracket for the tuner; status OK. -/
def Obligations.BitFieldCommandsComplete : Prop :=
  ∀ (s : State) (bank : Option Byte) (reg val mask : Byte),
    (AllOk s (accessAnswers bank mask) →
      exec (bitFieldCommand .demod bank reg val mask) s = .next (ended { s with
        env := s.env.drop (accessAnswers bank mask)
        history := s.history ++
          accessEvents s.cfg .demod bank reg val mask (byte0 (answerAt s (readAnswer 0 bank))) } .ok [])) ∧
    (AllOk s (accessAnswers bank mask + 2) →
      exec (bitFieldCommand .tuner bank reg val mask) s = .next (ended { s with
        rep := false
        env := s.env.drop (accessAnswers bank mask + 2)
        history := s.history ++ [.setRepeater true true] ++
          accessEvents s.cfg .tuner bank reg val mask (byte0 (answerAt s (readAnswer 1 bank))) ++
          [.setRepeater false true] } .ok []))

/-- R340, R331: a bit-field command on the demodulator whose `k`-th primitive fails: the events before it have happened, none
follows, and the status is BUS_ERROR. -/
def Obligations.BitFieldStopsAtFirstFailure : Prop :=
  ∀ (s : State) (bank : Option Byte) (reg val mask : Byte) (k : Nat) (e : Event), AllOk s k →
    s.env[k]? = some .err →
    (accessEvents s.cfg .demod bank reg val mask (byte0 (answerAt s (readAnswer 0 bank))))[k]? = some e →
    exec (bitFieldCommand .demod bank reg val mask) s = .next (ended { s with
      env := s.env.drop (k + 1)
      history := s.history ++
        (accessEvents s.cfg .demod bank reg val mask (byte0 (answerAt s (readAnswer 0 bank)))).take k ++
        [failedEvent e] } .busError [])

/-- R220, R340: the same on the tuner. A failed repeater-on ends the command after one attempt to switch it off; a failed
access is followed by the repeater-off call, whatever that answers; a failed repeater-off leaves REP at 1. -/
def Obligations.TunerBitFieldFailure : Prop :=
  ∀ (s : State) (bank : Option Byte) (reg val mask : Byte),
    let events := accessEvents s.cfg .tuner bank reg val mask (byte0 (answerAt s (readAnswer 1 bank)))
    (∀ a rest, s.env = .err :: a :: rest →
      exec (bitFieldCommand .tuner bank reg val mask) s = .next (ended { s with
        rep := if a.isOk then false else s.rep
        env := rest
        history := s.history ++ [.setRepeater true false, .setRepeater false a.isOk] } .busError [])) ∧
    (∀ k e a, AllOk s (k + 1) → s.env[k + 1]? = some .err → events[k]? = some e → s.env[k + 2]? = some a →
      exec (bitFieldCommand .tuner bank reg val mask) s = .next (ended { s with
        rep := !a.isOk
        env := s.env.drop (k + 3)
        history := s.history ++ [.setRepeater true true] ++ events.take k ++
          [failedEvent e, .setRepeater false a.isOk] } .busError [])) ∧
    (AllOk s (accessAnswers bank mask + 1) → s.env[accessAnswers bank mask + 1]? = some .err →
      exec (bitFieldCommand .tuner bank reg val mask) s = .next (ended { s with
        rep := true
        env := s.env.drop (accessAnswers bank mask + 2)
        history := s.history ++ [.setRepeater true true] ++ events ++ [.setRepeater false false] } .busError []))

/-- R132: SETBITS and SETBANKEDBITS neither read nor write DS, SYS, SUB or TUNED_*: other values of those fields pass through
and change nothing else. They complete in every state, with OK or BUS_ERROR. -/
def Obligations.BitFieldIgnoresTunerState : Prop :=
  ∀ (s : State) (tgt : Target) (bank : Option Byte) (reg val mask : Byte) (ds : DemodState) (sys : BroadcastSystem)
    (sub : SubMode) (f : Word) (bw : BitVec 4) (v : Bool),
    ∃ t st, (st = .ok ∨ st = .busError) ∧ t.resp = some { status := st, results := [] } ∧ SameFields s t ∧
      exec (bitFieldCommand tgt bank reg val mask) s = .next t ∧
      exec (bitFieldCommand tgt bank reg val mask)
        { s with ds := ds, sys := sys, sub := sub, tunedFreq := f, tunedBw := bw, tunedValid := v } =
        .next { t with ds := ds, sys := sys, sub := sub, tunedFreq := f, tunedBw := bw, tunedValid := v }

/-! ## The tuning state machine (43_state_machine) -/

/-- R250, R225, R220: INIT enters SEQ_DEMOD_INIT in every state and changes nothing else; and what follows the END of its two
sequences. -/
def Obligations.InitRunsItsSequences : Prop :=
  (∀ s : State, exec .init s = .next { s with run := some (freshRun .initDemod none) }) ∧
  (∀ c, (Phase.initDemod.sequence c).number = 0 ∧ (Phase.initTuner.sequence c).number = 1) ∧
  ∀ (s : State) (r : Run), s.run = some r →
    (∀ b0 b1 b2 b3 rest, r.phase = .initDemod → s.env = .ok b0 b1 b2 b3 :: rest →
      exec .endSeq s = .next { s with
        rep := true, env := rest, history := s.history ++ [.setRepeater true true], run := inPhase r .initTuner }) ∧
    (∀ a rest, r.phase = .initDemod → s.env = .err :: a :: rest →
      exec .endSeq s = .next (ended { s with
        rep := if a.isOk then false else s.rep
        env := rest
        history := s.history ++ [.setRepeater true false, .setRepeater false a.isOk] } .hardwareIoError [])) ∧
    (∀ b0 b1 b2 b3 rest, r.phase = .initTuner → s.env = .ok b0 b1 b2 b3 :: rest →
      exec .endSeq s = .next (ended { s with
        ds := .sleep, sys := .unknown, sub := .none, tunedValid := false
        rep := false, env := rest, history := s.history ++ [.setRepeater false true] } .ok [])) ∧
    (∀ rest, r.phase = .initTuner → s.env = .err :: rest →
      exec .endSeq s = .next (ended { s with
        env := rest, history := s.history ++ [.setRepeater false false] } .hardwareIoError []))

/-- R252: SLEEP outside Active writes the four fields with no event; in Active it runs the active system's power-down
sequence, whose END writes them. -/
def Obligations.SleepTransition : Prop :=
  (∀ s : State, s.ds ≠ .active → exec .sleep s = .next (ended { s with
    ds := .sleep, sys := .unknown, sub := .none, tunedValid := false } .ok [])) ∧
  (∀ (s : State) (old : System), s.ds = .active → s.sys = systemValue old →
    exec .sleep s = .next { s with run := some (freshRun (.sleep old) none) } ∧
    ((Phase.sleep old).sequence s.cfg).number = 8 + (systemNumber old - 1)) ∧
  (∀ (s : State) (r : Run) (old : System), s.run = some r → r.phase = .sleep old →
    exec .endSeq s = .next (ended { s with
      ds := .sleep, sys := .unknown, sub := .none, tunedValid := false } .ok []))

/-- R257: SET_FRONTEND with any of the listed causes returns UNSUPPORTED_SYSTEM with no event, and writes no state; and it
returns UNSUPPORTED_SYSTEM for no other cause (a block that runs a command has no response yet). -/
def Obligations.SetFrontendRefusesUnsupported : Prop :=
  ∀ (s : State) (sys : BitVec 3) (bw : BitVec 4) (freq sid : Word),
    (Unsupported s sys bw freq sid →
      exec (.setFrontend sys bw freq sid) s = .next (ended s .unsupportedSystem [])) ∧
    (∀ t ws, s.resp = none → exec (.setFrontend sys bw freq sid) s = .next t →
      t.resp = some { status := .unsupportedSystem, results := ws } → Unsupported s sys bw freq sid)

/-- R255, R256, R258: a supported SET_FRONTEND in its three cases. -/
def Obligations.SetFrontendCases : Prop :=
  ∀ (s : State) (sys : BitVec 3) (bw : BitVec 4) (freq sid : Word) (t : System), ¬Unsupported s sys bw freq sid →
    targetNumber s.cfg sys sid = systemNumber t →
    ∃ b, BwselOf t bw b ∧
      (s.ds = .sleep → exec (.setFrontend sys bw freq sid) s = .next { s with
        sys := systemValue t
        run := some (freshRun (.tuneS2A { target := t, bw := bw, freq := freq, same := false }) b) }) ∧
      (s.ds = .active → s.sys = systemValue t → exec (.setFrontend sys bw freq sid) s = .next { s with
        run := some (freshRun (.tuneSame { target := t, bw := bw, freq := freq, same := true }) b) }) ∧
      (∀ old, s.ds = .active → s.sys = systemValue old → old ≠ t → exec (.setFrontend sys bw freq sid) s = .next { s with
        run := some (freshRun (.tuneSleep old { target := t, bw := bw, freq := freq, same := false }) b) })

/-- R106, R221, R223, R230: the sequence each step of a tune runs; the high path's threshold is the configuration's
S3_HIGH_PATH_THRESHOLD_KHZ, 2150000 by default (R6). -/
def Obligations.TuneSequenceNumbers : Prop :=
  ∀ (c : Config) (old : System) (req : TuneReq),
    ((Phase.tuneSleep old req).sequence c).number = 8 + (systemNumber old - 1) ∧
    ((Phase.tuneS2A req).sequence c).number = 2 + (systemNumber req.target - 1) ∧
    ((Phase.tuneSame req).sequence c).number = 5 + (systemNumber req.target - 1) ∧
    ((Phase.tuneReset req).sequence c).number = 11 ∧
    ((Phase.tuneLoad req).sequence c).number = (if req.target = .isdbT then 12 else 13) ∧
    ((Phase.tuneFreq req).sequence c).number =
      (if req.target = .isdbT then 14
       else if req.target = .isdbS3 ∧ c.s3HighPathThresholdKhz.toNat < req.freq.toNat then 16 else 15)

/-- R221, R224, R255: what follows the END of a tune's sequences up to the frequency sequence. FREQW is R222's word where that
fits 24 bits, as every request does that passed R257 with a T_FREQ_BITS of at most 24; beyond that its low 24 bits are the model's
choice, not the spec's (log 15). -/
def Obligations.TuneGoesOn : Prop :=
  ∀ (s : State) (r : Run) (req : TuneReq), s.run = some r →
    (∀ old, r.phase = .tuneSleep old req → exec .endSeq s = .next { s with
      ds := .sleep, sys := systemValue req.target, sub := .none, tunedValid := false
      run := inPhase r (.tuneS2A req) }) ∧
    (∀ b0 b1 b2 b3 rest, r.phase = .tuneS2A req ∨ r.phase = .tuneSame req → s.env = .ok b0 b1 b2 b3 :: rest →
      s.sub ≠ subModeOf req.target → exec .endSeq s = .next { s with
        rep := true, env := rest, history := s.history ++ [.setRepeater true true]
        run := inPhase r (.tuneReset req) }) ∧
    (∀ b0 b1 b2 b3 rest, r.phase = .tuneS2A req ∨ r.phase = .tuneSame req → s.env = .ok b0 b1 b2 b3 :: rest →
      s.sub = subModeOf req.target → exec .endSeq s = .next { s with
        rep := true, env := rest, history := s.history ++ [.setRepeater true true]
        run := inPhase { r with freqw := some (frequencyWord req.target req.freq) } (.tuneFreq req) }) ∧
    (∀ a rest, r.phase = .tuneS2A req ∨ r.phase = .tuneSame req → s.env = .err :: a :: rest →
      exec .endSeq s = .next (ended { s with
        rep := if a.isOk then false else s.rep
        env := rest
        history := s.history ++ [.setRepeater true false, .setRepeater false a.isOk] } .hardwareIoError [])) ∧
    (r.phase = .tuneReset req → exec .endSeq s = .next { s with sub := .none, run := inPhase r (.tuneLoad req) }) ∧
    (r.phase = .tuneLoad req → exec .endSeq s = .next { s with
      sub := subModeOf req.target
      run := inPhase { r with freqw := some (frequencyWord req.target req.freq) } (.tuneFreq req) })

/-- R255, R258, R259: what follows the END of the frequency sequence: the bracket closes, the tune is latched, and in case 3
DS becomes Active; a failed repeater-off leaves the fields and REP as they are. -/
def Obligations.TuneFinishes : Prop :=
  ∀ (s : State) (r : Run) (req : TuneReq), s.run = some r → r.phase = .tuneFreq req →
    (∀ b0 b1 b2 b3 rest, s.env = .ok b0 b1 b2 b3 :: rest → exec .endSeq s = .next (ended { s with
      ds := if req.same then s.ds else .active
      tunedFreq := req.freq
      tunedBw := if req.target = .isdbT then req.bw else 0
      tunedValid := true
      rep := false, env := rest, history := s.history ++ [.setRepeater false true] } .ok [])) ∧
    (∀ rest, s.env = .err :: rest → exec .endSeq s = .next (ended { s with
      env := rest, history := s.history ++ [.setRepeater false false] } .hardwareIoError []))

/-- R261 item 1: a same-system tune of a block in a state the invariant allows only ever runs SEQ_SAME and the frequency
sequence: no sleep-to-active, power-down, reset or load sequence. -/
def Obligations.SameSystemTuneStaysLight : Prop :=
  (∀ (s t : State) (sys : BitVec 3) (bw : BitVec 4) (freq sid : Word) (sy : System), BlockInv s → s.ds = .active →
    s.sys = systemValue sy → targetNumber s.cfg sys sid = systemNumber sy →
    exec (.setFrontend sys bw freq sid) s = .next t → ∀ r, t.run = some r → SameSystemPhase r.phase) ∧
  (∀ (s t : State) (r r' : Run), BlockInv s → s.run = some r → SameSystemPhase r.phase → step s = .next t →
    t.run = some r' → SameSystemPhase r'.phase)

/-- R261 item 3: when a SET_FRONTEND's last sequence ends with status OK, DS is Active, SYS is the target, SUB the sub-mode it
needs, the tune is latched, and REP is 0. -/
def Obligations.SuccessfulTuneLeavesActive : Prop :=
  ∀ (s t : State) (r : Run) (req : TuneReq), BlockInv s → s.run = some r → r.phase = .tuneFreq req → step s = .next t →
    t.resp = some { status := .ok, results := [] } →
    t.ds = .active ∧ t.sys = systemValue req.target ∧ t.sub = subModeOf req.target ∧ t.tunedValid = true ∧
    t.tunedFreq = req.freq ∧ t.rep = false ∧ t.run = none

/-- R42, R262: GET_STATE completes in every state with no event; the STATE word field by field, reserved bits 0. -/
def Obligations.GetStateWord : Prop :=
  ∀ s : State, ∃ w : Word, exec .getState s = .next (ended s .ok [w, s.tunedFreq]) ∧
    w.extractLsb' 0 2 = (match s.ds with | .unknown => 0 | .sleep => 1 | .active => 2) ∧
    w.extractLsb' 2 2 = 0 ∧
    w.extractLsb' 4 2 = (match s.sys with | .unknown => 0 | .isdbT => 1 | .isdbS => 2 | .isdbS3 => 3) ∧
    w.extractLsb' 6 2 = 0 ∧
    w.extractLsb' 8 2 = (match s.sub with | .none => 0 | .terrestrial => 1 | .satellite => 2) ∧
    w.extractLsb' 10 2 = 0 ∧
    w.getLsbD 12 = s.rep ∧ w.getLsbD 13 = s.tunedValid ∧ w.extractLsb' 14 2 = 0 ∧
    w.extractLsb' 16 4 = s.tunedBw ∧ w.extractLsb' 20 12 = 0

/-! ## READ_STATUS (44_status) -/

/-- R290, R293, R294, R332: READ_STATUS with DS ≠ Active returns OK and five zeros with no event. In Active it completes
whatever the environment answers: with OK, or with HARDWARE_IO_ERROR and five zeros after the first failed primitive; it records
no fault, writes no field and does not use the repeater. -/
def Obligations.ReadStatusCompletes : Prop :=
  (∀ s : State, s.ds ≠ .active → exec .readStatus s = .next (ended s .ok [0, 0, 0, 0, 0])) ∧
  (∀ (s : State) (sy : System), s.ds = .active → s.sys = systemValue sy →
    ∃ t es ws st, exec .readStatus s = .next t ∧ SameFields s t ∧ t.rep = s.rep ∧ t.history = s.history ++ es ∧
      (∀ e ∈ es, ∀ b ok, e ≠ .setRepeater b ok) ∧
      t.resp = some { status := st, results := ws } ∧ ws.length = 5 ∧
      (st = .ok ∨ (st = .hardwareIoError ∧ ws = [0, 0, 0, 0, 0])) ∧
      (st = .ok → ∀ e ∈ es, e.failed = false) ∧
      (st = .hardwareIoError → ∃ pre e, es = pre ++ [e] ∧ e.failed = true ∧ ∀ x ∈ pre, x.failed = false))

/-- R290, R292, R294, R67, R64: the events of a READ_STATUS in Active that returns OK are exactly the reads of R290, in its
order; the flags are 0x1F when every LOCK_COND field reads as expected, and 0x03 otherwise. -/
def Obligations.ReadStatusReadsInOrder : Prop :=
  ∀ (s t : State) (sy : System) (r1 : Word) (ws : List Word) (es : List Event), s.ds = .active → s.sys = systemValue sy →
    exec .readStatus s = .next t → t.history = s.history ++ es → t.resp = some { status := .ok, results := r1 :: ws } →
    ∃ full : Bool, r1.extractLsb' 0 8 = (if full then 0x1F else 0x03) ∧
      es.map failedEvent = (statusReads s.cfg sy full).flatMap (fieldReads s.cfg) ∧
      (full = true ↔ ∀ (k : Nat) (f : RegField) (e : Word), (s.cfg.lockCond.get sy)[k]? = some (f, e) →
        (statusValues s.cfg sy full es)[k]? = some e)

/-- R290, R291, R293: of an OK response in Active, each metric is the result of its command on the values read, and its valid bit
is clear and the word 0 where that command does not complete with OK; CNR only at full lock, the relative scale and PER for
IsdbT only; the reserved bits are 0. -/
def Obligations.ReadStatusMetrics : Prop :=
  ∀ (s t : State) (sy : System) (r1 r2 r3 r4 r5 : Word) (es : List Event), s.ds = .active → s.sys = systemValue sy →
    exec .readStatus s = .next t → t.history = s.history ++ es →
    t.resp = some { status := .ok, results := [r1, r2, r3, r4, r5] } →
    let full := decide (r1.extractLsb' 0 8 = 0x1F)
    let values := statusValues s.cfg sy full es
    let n := (s.cfg.lockCond.get sy).length
    r1.extractLsb' 5 3 = 0 ∧ r1.extractLsb' 12 20 = 0 ∧
    (∃ agc, values[n]? = some agc ∧
      Metric s (match sy with | .isdbT => .rssiT agc s.tunedFreq | .isdbS => .rssiS agc | .isdbS3 => .rssiS agc)
        (r1.getLsbD 8) [r2]) ∧
    (match sy with
      | .isdbT => (full = false → r1.getLsbD 9 = false ∧ r3 = 0 ∧ r4 = 0) ∧ r1.getLsbD 10 = r1.getLsbD 9 ∧
        (full = true → ∃ snr, values[n + 1]? = some snr ∧ Metric s (.cnrT snr) (r1.getLsbD 9) [r3, r4])
      | .isdbS => SatelliteCnr s 2 full values (r1.getLsbD 9) r3 ∧ r1.getLsbD 10 = false ∧ r4 = 0
      | .isdbS3 => SatelliteCnr s 3 full values (r1.getLsbD 9) r3 ∧ r1.getLsbD 10 = false ∧ r4 = 0) ∧
    (match sy with
      | .isdbT => ∃ e w, values[values.length - 2]? = some e ∧ values[values.length - 1]? = some w ∧
          Metric s (.percalc e w) (r1.getLsbD 11) [r5]
      | .isdbS => r1.getLsbD 11 = false ∧ r5 = 0
      | .isdbS3 => r1.getLsbD 11 = false ∧ r5 = 0)

/-! ## ROM entries (42_sequencer) -/

/-- R203, R205, R200: a WR, or a WRV whose source is valid, in a running sequence whose primitives all succeed: exactly the
access's events on the entry's target, then the next entry. -/
def Obligations.WriteEntriesComplete : Prop :=
  ∀ (s : State) (r : Run) (a : Access) (v : Byte) (i : Instr), s.run = some r →
    (i = .wr a v ∨ ∃ src, i = .wrv a src ∧ SourceByte s.cfg r src v) → AllOk s (accessAnswers a.bank a.mask) →
    exec i s = .next { s with
      run := nextEntry r
      env := s.env.drop (accessAnswers a.bank a.mask)
      history := s.history ++ accessEvents s.cfg a.tgt a.bank a.reg v
        a.mask (byte0 (answerAt s (readAnswer 0 a.bank))) }

/-- R205: a WRV whose source's valid bit is 0 is the model fault WRV_SOURCE_UNSET, with no event. -/
def Obligations.WrvSourceUnsetFaults : Prop :=
  ∀ (s : State) (r : Run) (a : Access) (src : Source), s.run = some r → s.faultReason = none → SourceUnset r src →
    exec (.wrv a src) s = .next (faultedWith s .wrvSourceUnset)

/-- R226, R332, R340: a WR, WRV, POLLZ or RDSEL whose `k`-th primitive fails ends the command with HARDWARE_IO_ERROR; the events
before it have happened and none follows but, inside a bracket, the repeater-off call. -/
def Obligations.EntriesStopAtFirstFailure : Prop :=
  ∀ (s : State) (r : Run) (a : Access) (i : Instr) (k : Nat) (e : Event) (events : List Event), s.run = some r →
    EntryEvents s r a i events → AllOk s k → s.env[k]? = some .err → events[k]? = some e →
    (r.phase.inBracket = false → exec i s = .next (ended { s with
      env := s.env.drop (k + 1)
      history := s.history ++ events.take k ++ [failedEvent e] } .hardwareIoError [])) ∧
    (∀ b, r.phase.inBracket = true → s.env[k + 1]? = some b → exec i s = .next (ended { s with
      rep := if b.isOk then false else s.rep
      env := s.env.drop (k + 2)
      history := s.history ++ events.take k ++ [failedEvent e, .setRepeater false b.isOk] } .hardwareIoError []))

/-- R206, R209, R77: DELAY and HOOK record one event and go on; nothing else changes. -/
def Obligations.DelayAndHookComplete : Prop :=
  ∀ (s : State) (r : Run), s.run = some r →
    (∀ ms, exec (.delay ms) s = .next { s with run := nextEntry r, history := s.history ++ [.delay ms] }) ∧
    (∀ id v, exec (.hook id v) s = .next { s with run := nextEntry r, history := s.history ++ [.hook id v] })

/-- R207, R208: POLLZ and RDSEL read one byte, after the bank select of a banked entry. POLLZ goes on when no masked bit is set
and ends the command with TUNER_INIT_ERROR when one is: in INIT's cold boot as R208 says, and in any other phase, where R201
lets no POLLZ stand, by the model's choice (log 22); RDSEL selects the tuple of the masked and shifted byte. -/
def Obligations.ReadEntriesComplete : Prop :=
  ∀ (s : State) (r : Run) (a : Access), s.run = some r → AllOk s (readAnswer 1 a.bank) →
    let addr := addressOf s.cfg a.tgt
    let byte := byte0 (answerAt s (readAnswer 0 a.bank))
    let read : State := { s with
      env := s.env.drop (readAnswer 1 a.bank)
      history := s.history ++ (match a.bank with | some b => [.busWrite addr s.cfg.bankSelectReg [b] true] | none => []) ++
        [.busRead addr a.reg 1 (some [byte])] }
    (byte &&& a.mask = 0 → exec (.pollz a) s = .next { read with run := nextEntry r }) ∧
    (byte &&& a.mask ≠ 0 → r.phase.inBracket = false → exec (.pollz a) s = .next (ended read .tunerInitError [])) ∧
    (∀ b, byte &&& a.mask ≠ 0 → r.phase.inBracket = true → s.env[readAnswer 1 a.bank]? = some b →
      exec (.pollz a) s = .next (ended { read with
        rep := if b.isOk then false else s.rep
        env := s.env.drop (readAnswer 2 a.bank)
        history := read.history ++ [.setRepeater false b.isOk] } .tunerInitError [])) ∧
    (∀ m tuple, a.mask.toNat % 2 ^ (m + 1) = 2 ^ m → s.cfg.tsclkTable[(byte &&& a.mask).toNat / 2 ^ m]? = some tuple →
      exec (.rdsel a) s = .next { read with
        run := some { r with index := r.index + 1, tstuple := some tuple } })

/-! ## Invariants of the machine -/

/-- R43, R31, R39, R220, R336, R348: every step from any state that meets the block's invariant leaves it met. (The FREQW of a
frequency that does not fit 24 bits is the model's choice: log 15.) -/
def Obligations.StepKeepsBlockInvariant : Prop :=
  ∀ s t : State, BlockInv s → step s = .next t → BlockInv t

/-- R42, R39, R255: every step from any state that meets the invariant of requests leaves it met: TUNED_BW is 0, 6, 7 or 8,
a running tune has passed its validation, and BWSEL is valid for a terrestrial tune only. -/
def Obligations.StepKeepsRequestInvariant : Prop :=
  ∀ s t : State, RequestInv s → step s = .next t → RequestInv t

/-- The two invariants hold at reset, and the reset instance's configuration is one that R338 accepts (the model's choice:
log 1). -/
def Obligations.ResetMeetsInvariants : Prop :=
  BlockInv State.reset ∧ RequestInv State.reset ∧ ∃ c, configWf c = true ∧ State.reset = State.attach c

/-- Where `exec` stops by name: an entry with no sequence running (log 10), DS = Active with SYS = Unknown, which R43 rules
out (log 9), an RDSEL or a table of a configuration that R338 refuses (log 2); and nowhere else. -/
def Obligations.RefusalsByName : Prop :=
  (∀ (i : Instr) (s : State), s.run = none → i.isCommand = false → exec i s = .refused .noSequence) ∧
  (∀ s : State, s.ds = .active → s.sys = .unknown →
    exec .sleep s = .refused .noActiveSystem ∧ exec .readStatus s = .refused .noActiveSystem ∧
    ∀ sys bw freq sid, ¬Unsupported s sys bw freq sid →
      exec (.setFrontend sys bw freq sid) s = .refused .noActiveSystem) ∧
  (∀ (s : State) (r : Run) (a : Access), s.run = some r → a.mask = 0 →
    exec (.rdsel a) s = .refused (.illFormedConfig .tsClockIndex)) ∧
  (∀ (i : Instr) (s : State) (x : Refusal), exec i s = .refused x →
    (x = .noSequence ∧ s.run = none ∧ i.isCommand = false) ∨
    (x = .noActiveSystem ∧ s.ds = .active ∧ s.sys = .unknown) ∨
    (∃ d, x = .illFormedConfig d ∧ (configWf s.cfg = false ∨ ∃ a, i = .rdsel a ∧
      (a.mask = 0 ∨ s.cfg.tsclkTable.length ≤ a.mask.toNat / 2 ^ ctz a.mask))))

/-- R338, R31, R201, R43: a block with a well-formed configuration, in a good state, never meets a refusal: every step goes on
to a good state, or the block is stuck after a recorded model fault. -/
def Obligations.GoodStatesStepSafely : Prop :=
  ∀ s : State, GoodState s → SafeStep s ∧ ∀ t, step s = .next t → GoodState t

/-- R338, R360: attach of a well-formed configuration gives a good state. Any other is refused: by attach, by a new shared
context, and by the step of the state that attach would have made, so it has no run. -/
def Obligations.AttachGivesGoodState : Prop :=
  ∀ c : Config, (configWf c = true → attach c = .next (State.attach c) ∧ GoodState (State.attach c)) ∧
    (configWf c = false → attach c = .refused (.illFormedConfig .refusedAtAttach) ∧
      SharedBus.create c = .refused (.illFormedConfig .refusedAtAttach) ∧
      step (State.attach c) = .refused (.illFormedConfig .refusedAtAttach))

/-- R366: in a good state, a step accesses the tuner only while REP is 1, and accesses the demodulator nowhere inside a
WithRepeater bracket, of a sequence or of a bit-field command; while a tuner sequence runs it accesses only the tuner. (The two
bus addresses differ. After a repeater-off call that failed REP stays 1 outside every bracket, and there the demodulator is
accessed.) -/
def Obligations.TunerOnlyThroughRepeater : Prop :=
  ∀ s t : State, GoodState s → s.cfg.demodAddr ≠ s.cfg.tunerAddr → step s = .next t →
    ∃ es, t.history = s.history ++ es ∧ coveredByRepeater s.cfg.tunerAddr s.rep es = true ∧ t.rep = repAfterAll s.rep es ∧
      quietInBrackets s.cfg.demodAddr (insideBracket s) es = true ∧
      ∀ r, s.run = some r → r.phase.inBracket = true → ∀ e ∈ es, e.accesses s.cfg.demodAddr = false

/-- R220, R226: whenever a step ends a command that used the repeater with status OK, the repeater is off. -/
def Obligations.OkLeavesRepeaterOff : Prop :=
  ∀ (s t : State) (ws : List Word) (b ok : Bool) (es : List Event), BlockInv s → step s = .next t →
    t.history = s.history ++ es → .setRepeater b ok ∈ es → t.resp = some { status := .ok, results := ws } → t.rep = false

/-- R345: a running command of a good state ends, with a response or a model fault, within as many steps as SEQ_ROM has
entries. That the environment answers every primitive is built into the model (log 3). -/
def Obligations.RunningCommandEnds : Prop :=
  ∀ (s : State) (r : Run), GoodState s → s.run = some r →
    ∃ k t, k ≤ (SeqId.all.map fun id => (s.cfg.seqRom.entries id).length).sum ∧ Host.Core.run Sys2Proof.core k s = .next t ∧
      t.run = none ∧ (t.resp.isSome = true ∨ t.faultReason.isSome = true)

/-- R20, R71, R75, R90, R336: no step rewrites the event history or the configuration with its ROMs; it takes at most one
command from the port; a block with a recorded fault takes no step. -/
def Obligations.StepOnlyExtendsHistory : Prop :=
  ∀ s t : State, step s = .next t → t.cfg = s.cfg ∧ t.refused = s.refused ∧ (∃ es, t.history = s.history ++ es) ∧
    (t.port = s.port ∨ ∃ c, s.port = c :: t.port) ∧ s.faultReason = none

/-- R41, R39 (the frame of all the numeric and metric commands and GET_STATE): they issue no event and, unless a model fault is
recorded, change nothing but the response, with the command's end. -/
def Obligations.PureCommandsChangeNothing : Prop :=
  ∀ (i : Instr) (s t : State), (match i with
      | .log2 _ | .log10 _ | .sext _ _ | .tlookup _ _ | .pwl _ _ | .percalc _ _ | .rssiT _ _ | .rssiS _ | .cnrT _
      | .cnrS _ _ _ | .getState => True
      | _ => False) → exec i s = .next t →
    NoEvent s t ∧ t.run = none ∧
    ((∃ st ws, t = ended s st ws) ∨ (∃ x, t = raiseFault x s))

/-! ## Several instances on one bus (R76, R348) -/

/-- R76, R348: every move, attach and detach keeps the invariant of a shared context: an instance holds the lock exactly while
it runs a command or is faulted. So while one holds it, a move of another changes nothing of any instance's own state, and no
event of another one comes between those of its command. A new context meets the invariant. -/
def Obligations.LockedBusExcludesOthers : Prop :=
  (∀ (c : Config) (b : SharedBus), SharedBus.create c = .next b → ContextInv b ∧ b.cfg = c ∧ b.busHistory = []) ∧
  (∀ b b' : SharedBus, ContextInv b → SharedBus.Reaches b b' →
    ContextInv b' ∧ b'.cfg = b.cfg ∧ ∃ es, b'.busHistory = b.busHistory ++ es) ∧
  (∀ (b b' : SharedBus) (j k : Nat), ContextInv b → b.owner = some j → k ≠ j → b.move k = .next b' →
    b'.busHistory = b.busHistory ∧ b'.owner = some j ∧ b'.draws = b.draws ∧
      ∀ n : Nat, (b'.instanceAt n).map (ownPart b.cfg) = (b.instanceAt n).map (ownPart b.cfg))

/-- R348, R336: an instance that faults on a move holds the bus lock from then on, whatever moves, attaches and detaches follow:
it never moves again, no instance of the context changes its own state, and the bus has no further event. (That a faulted
instance which detaches leaves the lock held is the model's choice, log 29.) -/
def Obligations.FaultedInstanceKeepsLock : Prop :=
  ∀ (b b' b'' : SharedBus) (k : Nat) (s t : State), ContextInv b → b.instanceAt k = some s → s.faultReason = none →
    b.move k = .next b' → b'.instanceAt k = some t → t.faultReason.isSome = true → SharedBus.Reaches b' b'' →
    b''.owner = some k ∧ b''.busHistory = b'.busHistory ∧
    (∀ u, b''.instanceAt k = some u → u = t ∧ ∃ x, b''.move k = .fault (.stuck x)) ∧
    (∀ n u, b''.instanceAt n = some u → b'.instanceAt n = none ∨
      (b'.instanceAt n).map (ownPart b.cfg) = some (ownPart b.cfg u))
end

