-- ==== Sys2Proof/Laws/State.lean ====
section
/-! SUPPORT. One lemma per field per named update of the state, so that no later proof unfolds a record update. -/

namespace Sys2Proof.Machine

variable (s : State)

/-! ### record -/

@[simp] theorem State.record_cfg (e : Event) : (s.record e).cfg = s.cfg := rfl
@[simp] theorem State.record_refused (e : Event) : (s.record e).refused = s.refused := rfl
@[simp] theorem State.record_ds (e : Event) : (s.record e).ds = s.ds := rfl
@[simp] theorem State.record_sys (e : Event) : (s.record e).sys = s.sys := rfl
@[simp] theorem State.record_sub (e : Event) : (s.record e).sub = s.sub := rfl
@[simp] theorem State.record_rep (e : Event) : (s.record e).rep = s.rep := rfl
@[simp] theorem State.record_tunedFreq (e : Event) : (s.record e).tunedFreq = s.tunedFreq := rfl
@[simp] theorem State.record_tunedBw (e : Event) : (s.record e).tunedBw = s.tunedBw := rfl
@[simp] theorem State.record_tunedValid (e : Event) : (s.record e).tunedValid = s.tunedValid := rfl
@[simp] theorem State.record_faultReason (e : Event) : (s.record e).faultReason = s.faultReason := rfl
@[simp] theorem State.record_run (e : Event) : (s.record e).run = s.run := rfl
@[simp] theorem State.record_lock (e : Event) : (s.record e).lock = s.lock := rfl
@[simp] theorem State.record_port (e : Event) : (s.record e).port = s.port := rfl
@[simp] theorem State.record_resp (e : Event) : (s.record e).resp = s.resp := rfl
@[simp] theorem State.record_env (e : Event) : (s.record e).env = s.env := rfl
@[simp] theorem State.record_draws (e : Event) : (s.record e).draws = s.draws := rfl
@[simp] theorem State.record_history (e : Event) : (s.record e).history = s.history ++ [e] := rfl

/-! ### respond -/

@[simp] theorem respond_cfg (st : Status) (ws : List Word) : (respond st ws s).cfg = s.cfg := rfl
@[simp] theorem respond_refused (st : Status) (ws : List Word) : (respond st ws s).refused = s.refused := rfl
@[simp] theorem respond_ds (st : Status) (ws : List Word) : (respond st ws s).ds = s.ds := rfl
@[simp] theorem respond_sys (st : Status) (ws : List Word) : (respond st ws s).sys = s.sys := rfl
@[simp] theorem respond_sub (st : Status) (ws : List Word) : (respond st ws s).sub = s.sub := rfl
@[simp] theorem respond_rep (st : Status) (ws : List Word) : (respond st ws s).rep = s.rep := rfl
@[simp] theorem respond_tunedFreq (st : Status) (ws : List Word) : (respond st ws s).tunedFreq = s.tunedFreq := rfl
@[simp] theorem respond_tunedBw (st : Status) (ws : List Word) : (respond st ws s).tunedBw = s.tunedBw := rfl
@[simp] theorem respond_tunedValid (st : Status) (ws : List Word) : (respond st ws s).tunedValid = s.tunedValid := rfl
@[simp] theorem respond_faultReason (st : Status) (ws : List Word) : (respond st ws s).faultReason = s.faultReason := rfl
@[simp] theorem respond_run (st : Status) (ws : List Word) : (respond st ws s).run = none := rfl
@[simp] theorem respond_lock (st : Status) (ws : List Word) : (respond st ws s).lock = .free := rfl
@[simp] theorem respond_port (st : Status) (ws : List Word) : (respond st ws s).port = s.port := rfl
@[simp] theorem respond_resp (st : Status) (ws : List Word) : (respond st ws s).resp = some { status := st, results := ws } := rfl
@[simp] theorem respond_env (st : Status) (ws : List Word) : (respond st ws s).env = s.env := rfl
@[simp] theorem respond_draws (st : Status) (ws : List Word) : (respond st ws s).draws = s.draws := rfl
@[simp] theorem respond_history (st : Status) (ws : List Word) : (respond st ws s).history = s.history := rfl

/-! ### raiseStatus -/

@[simp] theorem raiseStatus_cfg (st : Status) (n : Nat) : (raiseStatus st n s).cfg = s.cfg := rfl
@[simp] theorem raiseStatus_refused (st : Status) (n : Nat) : (raiseStatus st n s).refused = s.refused := rfl
@[simp] theorem raiseStatus_ds (st : Status) (n : Nat) : (raiseStatus st n s).ds = s.ds := rfl
@[simp] theorem raiseStatus_sys (st : Status) (n : Nat) : (raiseStatus st n s).sys = s.sys := rfl
@[simp] theorem raiseStatus_sub (st : Status) (n : Nat) : (raiseStatus st n s).sub = s.sub := rfl
@[simp] theorem raiseStatus_rep (st : Status) (n : Nat) : (raiseStatus st n s).rep = s.rep := rfl
@[simp] theorem raiseStatus_tunedFreq (st : Status) (n : Nat) : (raiseStatus st n s).tunedFreq = s.tunedFreq := rfl
@[simp] theorem raiseStatus_tunedBw (st : Status) (n : Nat) : (raiseStatus st n s).tunedBw = s.tunedBw := rfl
@[simp] theorem raiseStatus_tunedValid (st : Status) (n : Nat) : (raiseStatus st n s).tunedValid = s.tunedValid := rfl
@[simp] theorem raiseStatus_faultReason (st : Status) (n : Nat) : (raiseStatus st n s).faultReason = s.faultReason := rfl
@[simp] theorem raiseStatus_run (st : Status) (n : Nat) : (raiseStatus st n s).run = none := rfl
@[simp] theorem raiseStatus_lock (st : Status) (n : Nat) : (raiseStatus st n s).lock = .free := rfl
@[simp] theorem raiseStatus_port (st : Status) (n : Nat) : (raiseStatus st n s).port = s.port := rfl
@[simp] theorem raiseStatus_resp (st : Status) (n : Nat) : (raiseStatus st n s).resp = some { status := st, results := List.replicate n 0 } := rfl
@[simp] theorem raiseStatus_env (st : Status) (n : Nat) : (raiseStatus st n s).env = s.env := rfl
@[simp] theorem raiseStatus_draws (st : Status) (n : Nat) : (raiseStatus st n s).draws = s.draws := rfl
@[simp] theorem raiseStatus_history (st : Status) (n : Nat) : (raiseStatus st n s).history = s.history := rfl

/-! ### raiseIllegal -/

@[simp] theorem raiseIllegal_cfg : (raiseIllegal s).cfg = s.cfg := rfl
@[simp] theorem raiseIllegal_refused : (raiseIllegal s).refused = s.refused := rfl
@[simp] theorem raiseIllegal_ds : (raiseIllegal s).ds = s.ds := rfl
@[simp] theorem raiseIllegal_sys : (raiseIllegal s).sys = s.sys := rfl
@[simp] theorem raiseIllegal_sub : (raiseIllegal s).sub = s.sub := rfl
@[simp] theorem raiseIllegal_rep : (raiseIllegal s).rep = s.rep := rfl
@[simp] theorem raiseIllegal_tunedFreq : (raiseIllegal s).tunedFreq = s.tunedFreq := rfl
@[simp] theorem raiseIllegal_tunedBw : (raiseIllegal s).tunedBw = s.tunedBw := rfl
@[simp] theorem raiseIllegal_tunedValid : (raiseIllegal s).tunedValid = s.tunedValid := rfl
@[simp] theorem raiseIllegal_faultReason : (raiseIllegal s).faultReason = s.faultReason := rfl
@[simp] theorem raiseIllegal_run : (raiseIllegal s).run = none := rfl
@[simp] theorem raiseIllegal_lock : (raiseIllegal s).lock = .free := rfl
@[simp] theorem raiseIllegal_port : (raiseIllegal s).port = s.port := rfl
@[simp] theorem raiseIllegal_resp : (raiseIllegal s).resp = some { status := .illegalCommand, results := [] } := rfl
@[simp] theorem raiseIllegal_env : (raiseIllegal s).env = s.env := rfl
@[simp] theorem raiseIllegal_draws : (raiseIllegal s).draws = s.draws := rfl
@[simp] theorem raiseIllegal_history : (raiseIllegal s).history = s.history := rfl

/-! ### raiseFault -/

@[simp] theorem raiseFault_cfg (r : FaultReason) : (raiseFault r s).cfg = s.cfg := rfl
@[simp] theorem raiseFault_refused (r : FaultReason) : (raiseFault r s).refused = s.refused := rfl
@[simp] theorem raiseFault_ds (r : FaultReason) : (raiseFault r s).ds = s.ds := rfl
@[simp] theorem raiseFault_sys (r : FaultReason) : (raiseFault r s).sys = s.sys := rfl
@[simp] theorem raiseFault_sub (r : FaultReason) : (raiseFault r s).sub = s.sub := rfl
@[simp] theorem raiseFault_rep (r : FaultReason) : (raiseFault r s).rep = s.rep := rfl
@[simp] theorem raiseFault_tunedFreq (r : FaultReason) : (raiseFault r s).tunedFreq = s.tunedFreq := rfl
@[simp] theorem raiseFault_tunedBw (r : FaultReason) : (raiseFault r s).tunedBw = s.tunedBw := rfl
@[simp] theorem raiseFault_tunedValid (r : FaultReason) : (raiseFault r s).tunedValid = s.tunedValid := rfl
@[simp] theorem raiseFault_faultReason (r : FaultReason) : (raiseFault r s).faultReason = some (s.faultReason.getD r) := rfl
@[simp] theorem raiseFault_run (r : FaultReason) : (raiseFault r s).run = none := rfl
@[simp] theorem raiseFault_lock (r : FaultReason) : (raiseFault r s).lock = .held := rfl
@[simp] theorem raiseFault_port (r : FaultReason) : (raiseFault r s).port = s.port := rfl
@[simp] theorem raiseFault_resp (r : FaultReason) : (raiseFault r s).resp = none := rfl
@[simp] theorem raiseFault_env (r : FaultReason) : (raiseFault r s).env = s.env := rfl
@[simp] theorem raiseFault_draws (r : FaultReason) : (raiseFault r s).draws = s.draws := rfl
@[simp] theorem raiseFault_history (r : FaultReason) : (raiseFault r s).history = s.history := rfl

/-! ### hookOutput -/

@[simp] theorem hookOutput_cfg (id v : Byte) : (hookOutput id v s).cfg = s.cfg := rfl
@[simp] theorem hookOutput_refused (id v : Byte) : (hookOutput id v s).refused = s.refused := rfl
@[simp] theorem hookOutput_ds (id v : Byte) : (hookOutput id v s).ds = s.ds := rfl
@[simp] theorem hookOutput_sys (id v : Byte) : (hookOutput id v s).sys = s.sys := rfl
@[simp] theorem hookOutput_sub (id v : Byte) : (hookOutput id v s).sub = s.sub := rfl
@[simp] theorem hookOutput_rep (id v : Byte) : (hookOutput id v s).rep = s.rep := rfl
@[simp] theorem hookOutput_tunedFreq (id v : Byte) : (hookOutput id v s).tunedFreq = s.tunedFreq := rfl
@[simp] theorem hookOutput_tunedBw (id v : Byte) : (hookOutput id v s).tunedBw = s.tunedBw := rfl
@[simp] theorem hookOutput_tunedValid (id v : Byte) : (hookOutput id v s).tunedValid = s.tunedValid := rfl
@[simp] theorem hookOutput_faultReason (id v : Byte) : (hookOutput id v s).faultReason = s.faultReason := rfl
@[simp] theorem hookOutput_run (id v : Byte) : (hookOutput id v s).run = s.run := rfl
@[simp] theorem hookOutput_lock (id v : Byte) : (hookOutput id v s).lock = s.lock := rfl
@[simp] theorem hookOutput_port (id v : Byte) : (hookOutput id v s).port = s.port := rfl
@[simp] theorem hookOutput_resp (id v : Byte) : (hookOutput id v s).resp = s.resp := rfl
@[simp] theorem hookOutput_env (id v : Byte) : (hookOutput id v s).env = s.env := rfl
@[simp] theorem hookOutput_draws (id v : Byte) : (hookOutput id v s).draws = s.draws := rfl
@[simp] theorem hookOutput_history (id v : Byte) : (hookOutput id v s).history = s.history ++ [.hook id v] := rfl

/-! ### delayMs -/

@[simp] theorem delayMs_cfg (ms : BitVec 16) : (delayMs ms s).cfg = s.cfg := rfl
@[simp] theorem delayMs_refused (ms : BitVec 16) : (delayMs ms s).refused = s.refused := rfl
@[simp] theorem delayMs_ds (ms : BitVec 16) : (delayMs ms s).ds = s.ds := rfl
@[simp] theorem delayMs_sys (ms : BitVec 16) : (delayMs ms s).sys = s.sys := rfl
@[simp] theorem delayMs_sub (ms : BitVec 16) : (delayMs ms s).sub = s.sub := rfl
@[simp] theorem delayMs_rep (ms : BitVec 16) : (delayMs ms s).rep = s.rep := rfl
@[simp] theorem delayMs_tunedFreq (ms : BitVec 16) : (delayMs ms s).tunedFreq = s.tunedFreq := rfl
@[simp] theorem delayMs_tunedBw (ms : BitVec 16) : (delayMs ms s).tunedBw = s.tunedBw := rfl
@[simp] theorem delayMs_tunedValid (ms : BitVec 16) : (delayMs ms s).tunedValid = s.tunedValid := rfl
@[simp] theorem delayMs_faultReason (ms : BitVec 16) : (delayMs ms s).faultReason = s.faultReason := rfl
@[simp] theorem delayMs_run (ms : BitVec 16) : (delayMs ms s).run = s.run := rfl
@[simp] theorem delayMs_lock (ms : BitVec 16) : (delayMs ms s).lock = s.lock := rfl
@[simp] theorem delayMs_port (ms : BitVec 16) : (delayMs ms s).port = s.port := rfl
@[simp] theorem delayMs_resp (ms : BitVec 16) : (delayMs ms s).resp = s.resp := rfl
@[simp] theorem delayMs_env (ms : BitVec 16) : (delayMs ms s).env = s.env := rfl
@[simp] theorem delayMs_draws (ms : BitVec 16) : (delayMs ms s).draws = s.draws := rfl
@[simp] theorem delayMs_history (ms : BitVec 16) : (delayMs ms s).history = s.history ++ [.delay ms] := rfl

/-! ### startRun -/

@[simp] theorem startRun_cfg (p : Phase) (b : Option Bandwidth) : (startRun p b s).cfg = s.cfg := rfl
@[simp] theorem startRun_refused (p : Phase) (b : Option Bandwidth) : (startRun p b s).refused = s.refused := rfl
@[simp] theorem startRun_ds (p : Phase) (b : Option Bandwidth) : (startRun p b s).ds = s.ds := rfl
@[simp] theorem startRun_sys (p : Phase) (b : Option Bandwidth) : (startRun p b s).sys = s.sys := rfl
@[simp] theorem startRun_sub (p : Phase) (b : Option Bandwidth) : (startRun p b s).sub = s.sub := rfl
@[simp] theorem startRun_rep (p : Phase) (b : Option Bandwidth) : (startRun p b s).rep = s.rep := rfl
@[simp] theorem startRun_tunedFreq (p : Phase) (b : Option Bandwidth) : (startRun p b s).tunedFreq = s.tunedFreq := rfl
@[simp] theorem startRun_tunedBw (p : Phase) (b : Option Bandwidth) : (startRun p b s).tunedBw = s.tunedBw := rfl
@[simp] theorem startRun_tunedValid (p : Phase) (b : Option Bandwidth) : (startRun p b s).tunedValid = s.tunedValid := rfl
@[simp] theorem startRun_faultReason (p : Phase) (b : Option Bandwidth) : (startRun p b s).faultReason = s.faultReason := rfl
@[simp] theorem startRun_run (p : Phase) (b : Option Bandwidth) : (startRun p b s).run = some { phase := p, index := 0, freqw := none, bwsel := b, tstuple := none } := rfl
@[simp] theorem startRun_lock (p : Phase) (b : Option Bandwidth) : (startRun p b s).lock = s.lock := rfl
@[simp] theorem startRun_port (p : Phase) (b : Option Bandwidth) : (startRun p b s).port = s.port := rfl
@[simp] theorem startRun_resp (p : Phase) (b : Option Bandwidth) : (startRun p b s).resp = s.resp := rfl
@[simp] theorem startRun_env (p : Phase) (b : Option Bandwidth) : (startRun p b s).env = s.env := rfl
@[simp] theorem startRun_draws (p : Phase) (b : Option Bandwidth) : (startRun p b s).draws = s.draws := rfl
@[simp] theorem startRun_history (p : Phase) (b : Option Bandwidth) : (startRun p b s).history = s.history := rfl

/-! ### gotoPhase -/

@[simp] theorem gotoPhase_cfg (r : Run) (p : Phase) : (gotoPhase r p s).cfg = s.cfg := rfl
@[simp] theorem gotoPhase_refused (r : Run) (p : Phase) : (gotoPhase r p s).refused = s.refused := rfl
@[simp] theorem gotoPhase_ds (r : Run) (p : Phase) : (gotoPhase r p s).ds = s.ds := rfl
@[simp] theorem gotoPhase_sys (r : Run) (p : Phase) : (gotoPhase r p s).sys = s.sys := rfl
@[simp] theorem gotoPhase_sub (r : Run) (p : Phase) : (gotoPhase r p s).sub = s.sub := rfl
@[simp] theorem gotoPhase_rep (r : Run) (p : Phase) : (gotoPhase r p s).rep = s.rep := rfl
@[simp] theorem gotoPhase_tunedFreq (r : Run) (p : Phase) : (gotoPhase r p s).tunedFreq = s.tunedFreq := rfl
@[simp] theorem gotoPhase_tunedBw (r : Run) (p : Phase) : (gotoPhase r p s).tunedBw = s.tunedBw := rfl
@[simp] theorem gotoPhase_tunedValid (r : Run) (p : Phase) : (gotoPhase r p s).tunedValid = s.tunedValid := rfl
@[simp] theorem gotoPhase_faultReason (r : Run) (p : Phase) : (gotoPhase r p s).faultReason = s.faultReason := rfl
@[simp] theorem gotoPhase_run (r : Run) (p : Phase) : (gotoPhase r p s).run = some { r with phase := p, index := 0 } := rfl
@[simp] theorem gotoPhase_lock (r : Run) (p : Phase) : (gotoPhase r p s).lock = s.lock := rfl
@[simp] theorem gotoPhase_port (r : Run) (p : Phase) : (gotoPhase r p s).port = s.port := rfl
@[simp] theorem gotoPhase_resp (r : Run) (p : Phase) : (gotoPhase r p s).resp = s.resp := rfl
@[simp] theorem gotoPhase_env (r : Run) (p : Phase) : (gotoPhase r p s).env = s.env := rfl
@[simp] theorem gotoPhase_draws (r : Run) (p : Phase) : (gotoPhase r p s).draws = s.draws := rfl
@[simp] theorem gotoPhase_history (r : Run) (p : Phase) : (gotoPhase r p s).history = s.history := rfl

/-! ### advance -/

@[simp] theorem advance_cfg (r : Run) : (advance r s).cfg = s.cfg := rfl
@[simp] theorem advance_refused (r : Run) : (advance r s).refused = s.refused := rfl
@[simp] theorem advance_ds (r : Run) : (advance r s).ds = s.ds := rfl
@[simp] theorem advance_sys (r : Run) : (advance r s).sys = s.sys := rfl
@[simp] theorem advance_sub (r : Run) : (advance r s).sub = s.sub := rfl
@[simp] theorem advance_rep (r : Run) : (advance r s).rep = s.rep := rfl
@[simp] theorem advance_tunedFreq (r : Run) : (advance r s).tunedFreq = s.tunedFreq := rfl
@[simp] theorem advance_tunedBw (r : Run) : (advance r s).tunedBw = s.tunedBw := rfl
@[simp] theorem advance_tunedValid (r : Run) : (advance r s).tunedValid = s.tunedValid := rfl
@[simp] theorem advance_faultReason (r : Run) : (advance r s).faultReason = s.faultReason := rfl
@[simp] theorem advance_run (r : Run) : (advance r s).run = some { r with index := r.index + 1 } := rfl
@[simp] theorem advance_lock (r : Run) : (advance r s).lock = s.lock := rfl
@[simp] theorem advance_port (r : Run) : (advance r s).port = s.port := rfl
@[simp] theorem advance_resp (r : Run) : (advance r s).resp = s.resp := rfl
@[simp] theorem advance_env (r : Run) : (advance r s).env = s.env := rfl
@[simp] theorem advance_draws (r : Run) : (advance r s).draws = s.draws := rfl
@[simp] theorem advance_history (r : Run) : (advance r s).history = s.history := rfl

/-! ### sleepFields -/

@[simp] theorem sleepFields_cfg : (sleepFields s).cfg = s.cfg := rfl
@[simp] theorem sleepFields_refused : (sleepFields s).refused = s.refused := rfl
@[simp] theorem sleepFields_ds : (sleepFields s).ds = .sleep := rfl
@[simp] theorem sleepFields_sys : (sleepFields s).sys = .unknown := rfl
@[simp] theorem sleepFields_sub : (sleepFields s).sub = .none := rfl
@[simp] theorem sleepFields_rep : (sleepFields s).rep = s.rep := rfl
@[simp] theorem sleepFields_tunedFreq : (sleepFields s).tunedFreq = s.tunedFreq := rfl
@[simp] theorem sleepFields_tunedBw : (sleepFields s).tunedBw = s.tunedBw := rfl
@[simp] theorem sleepFields_tunedValid : (sleepFields s).tunedValid = false := rfl
@[simp] theorem sleepFields_faultReason : (sleepFields s).faultReason = s.faultReason := rfl
@[simp] theorem sleepFields_run : (sleepFields s).run = s.run := rfl
@[simp] theorem sleepFields_lock : (sleepFields s).lock = s.lock := rfl
@[simp] theorem sleepFields_port : (sleepFields s).port = s.port := rfl
@[simp] theorem sleepFields_resp : (sleepFields s).resp = s.resp := rfl
@[simp] theorem sleepFields_env : (sleepFields s).env = s.env := rfl
@[simp] theorem sleepFields_draws : (sleepFields s).draws = s.draws := rfl
@[simp] theorem sleepFields_history : (sleepFields s).history = s.history := rfl

/-! ### takeCommand -/

@[simp] theorem takeCommand_cfg (rest : List Command) : (takeCommand rest s).cfg = s.cfg := rfl
@[simp] theorem takeCommand_refused (rest : List Command) : (takeCommand rest s).refused = s.refused := rfl
@[simp] theorem takeCommand_ds (rest : List Command) : (takeCommand rest s).ds = s.ds := rfl
@[simp] theorem takeCommand_sys (rest : List Command) : (takeCommand rest s).sys = s.sys := rfl
@[simp] theorem takeCommand_sub (rest : List Command) : (takeCommand rest s).sub = s.sub := rfl
@[simp] theorem takeCommand_rep (rest : List Command) : (takeCommand rest s).rep = s.rep := rfl
@[simp] theorem takeCommand_tunedFreq (rest : List Command) : (takeCommand rest s).tunedFreq = s.tunedFreq := rfl
@[simp] theorem takeCommand_tunedBw (rest : List Command) : (takeCommand rest s).tunedBw = s.tunedBw := rfl
@[simp] theorem takeCommand_tunedValid (rest : List Command) : (takeCommand rest s).tunedValid = s.tunedValid := rfl
@[simp] theorem takeCommand_faultReason (rest : List Command) : (takeCommand rest s).faultReason = s.faultReason := rfl
@[simp] theorem takeCommand_run (rest : List Command) : (takeCommand rest s).run = s.run := rfl
@[simp] theorem takeCommand_lock (rest : List Command) : (takeCommand rest s).lock = .held := rfl
@[simp] theorem takeCommand_port (rest : List Command) : (takeCommand rest s).port = rest := rfl
@[simp] theorem takeCommand_resp (rest : List Command) : (takeCommand rest s).resp = none := rfl
@[simp] theorem takeCommand_env (rest : List Command) : (takeCommand rest s).env = s.env := rfl
@[simp] theorem takeCommand_draws (rest : List Command) : (takeCommand rest s).draws = s.draws := rfl
@[simp] theorem takeCommand_history (rest : List Command) : (takeCommand rest s).history = s.history := rfl

/-! ### latchTuned -/

@[simp] theorem latchTuned_cfg (req : TuneReq) : (latchTuned req s).cfg = s.cfg := rfl
@[simp] theorem latchTuned_refused (req : TuneReq) : (latchTuned req s).refused = s.refused := rfl
@[simp] theorem latchTuned_ds (req : TuneReq) : (latchTuned req s).ds = s.ds := rfl
@[simp] theorem latchTuned_sys (req : TuneReq) : (latchTuned req s).sys = s.sys := rfl
@[simp] theorem latchTuned_sub (req : TuneReq) : (latchTuned req s).sub = s.sub := rfl
@[simp] theorem latchTuned_rep (req : TuneReq) : (latchTuned req s).rep = s.rep := rfl
@[simp] theorem latchTuned_tunedFreq (req : TuneReq) : (latchTuned req s).tunedFreq = req.freq := rfl
@[simp] theorem latchTuned_tunedValid (req : TuneReq) : (latchTuned req s).tunedValid = true := rfl
@[simp] theorem latchTuned_faultReason (req : TuneReq) : (latchTuned req s).faultReason = s.faultReason := rfl
@[simp] theorem latchTuned_run (req : TuneReq) : (latchTuned req s).run = s.run := rfl
@[simp] theorem latchTuned_lock (req : TuneReq) : (latchTuned req s).lock = s.lock := rfl
@[simp] theorem latchTuned_port (req : TuneReq) : (latchTuned req s).port = s.port := rfl
@[simp] theorem latchTuned_resp (req : TuneReq) : (latchTuned req s).resp = s.resp := rfl
@[simp] theorem latchTuned_env (req : TuneReq) : (latchTuned req s).env = s.env := rfl
@[simp] theorem latchTuned_draws (req : TuneReq) : (latchTuned req s).draws = s.draws := rfl
@[simp] theorem latchTuned_history (req : TuneReq) : (latchTuned req s).history = s.history := rfl

/-- R259: TUNED_BW is BW for IsdbT and 0 for a satellite system. -/
@[simp] theorem latchTuned_tunedBw (req : TuneReq) :
    (latchTuned req s).tunedBw = if req.target = .isdbT then req.bw else 0 := by
  cases h : req.target <;> simp [latchTuned, h]

/-! ### drawn: only the answers to come and the draw counter change -/

@[simp] theorem State.drawn_cfg : s.drawn.cfg = s.cfg := by unfold State.drawn; split <;> rfl
@[simp] theorem State.drawn_refused : s.drawn.refused = s.refused := by unfold State.drawn; split <;> rfl
@[simp] theorem State.drawn_ds : s.drawn.ds = s.ds := by unfold State.drawn; split <;> rfl
@[simp] theorem State.drawn_sys : s.drawn.sys = s.sys := by unfold State.drawn; split <;> rfl
@[simp] theorem State.drawn_sub : s.drawn.sub = s.sub := by unfold State.drawn; split <;> rfl
@[simp] theorem State.drawn_rep : s.drawn.rep = s.rep := by unfold State.drawn; split <;> rfl
@[simp] theorem State.drawn_tunedFreq : s.drawn.tunedFreq = s.tunedFreq := by unfold State.drawn; split <;> rfl
@[simp] theorem State.drawn_tunedBw : s.drawn.tunedBw = s.tunedBw := by unfold State.drawn; split <;> rfl
@[simp] theorem State.drawn_tunedValid : s.drawn.tunedValid = s.tunedValid := by unfold State.drawn; split <;> rfl
@[simp] theorem State.drawn_faultReason : s.drawn.faultReason = s.faultReason := by unfold State.drawn; split <;> rfl
@[simp] theorem State.drawn_run : s.drawn.run = s.run := by unfold State.drawn; split <;> rfl
@[simp] theorem State.drawn_lock : s.drawn.lock = s.lock := by unfold State.drawn; split <;> rfl
@[simp] theorem State.drawn_port : s.drawn.port = s.port := by unfold State.drawn; split <;> rfl
@[simp] theorem State.drawn_resp : s.drawn.resp = s.resp := by unfold State.drawn; split <;> rfl
@[simp] theorem State.drawn_history : s.drawn.history = s.history := by unfold State.drawn; split <;> rfl

/-- With an answer listed, it is the answer, and it is taken from the list. -/
@[simp] theorem State.answer_of_env {a : Answer} {rest : List Answer} (h : s.env = a :: rest) : s.answer = a := by
  simp [State.answer, h]

@[simp] theorem State.drawn_of_env {a : Answer} {rest : List Answer} (h : s.env = a :: rest) :
    s.drawn = { s with env := rest } := by
  simp [State.drawn, h]

/-! ### The state after attach -/

@[simp] theorem State.attach_cfg (c : Config) : (State.attach c).cfg = c := rfl
@[simp] theorem State.attach_refused (c : Config) : (State.attach c).refused = (!configWf c) := rfl
@[simp] theorem State.attach_ds (c : Config) : (State.attach c).ds = .unknown := rfl
@[simp] theorem State.attach_sys (c : Config) : (State.attach c).sys = .unknown := rfl
@[simp] theorem State.attach_sub (c : Config) : (State.attach c).sub = .none := rfl
@[simp] theorem State.attach_rep (c : Config) : (State.attach c).rep = false := rfl
@[simp] theorem State.attach_tunedFreq (c : Config) : (State.attach c).tunedFreq = 0 := rfl
@[simp] theorem State.attach_tunedBw (c : Config) : (State.attach c).tunedBw = 0 := rfl
@[simp] theorem State.attach_tunedValid (c : Config) : (State.attach c).tunedValid = false := rfl
@[simp] theorem State.attach_faultReason (c : Config) : (State.attach c).faultReason = none := rfl
@[simp] theorem State.attach_run (c : Config) : (State.attach c).run = none := rfl
@[simp] theorem State.attach_lock (c : Config) : (State.attach c).lock = .free := rfl
@[simp] theorem State.attach_port (c : Config) : (State.attach c).port = [] := rfl
@[simp] theorem State.attach_resp (c : Config) : (State.attach c).resp = none := rfl
@[simp] theorem State.attach_env (c : Config) : (State.attach c).env = [] := rfl
@[simp] theorem State.attach_draws (c : Config) : (State.attach c).draws = 0 := rfl
@[simp] theorem State.attach_history (c : Config) : (State.attach c).history = [] := rfl

/-- The configuration at reset is one that R338 accepts, whatever the opaque values are. -/
theorem configWf_attached : configWf Config.attached = true := by
  unfold Config.attached
  split
  · assumption
  · decide +kernel

/-- Reset is attach (R360). -/
theorem State.reset_eq_attach : State.reset = State.attach Config.attached := by
  simp [State.reset, State.attach, configWf_attached]

end Sys2Proof.Machine
end

