-- ==== Sys2Proof/Laws/Context.lean ====
section
/-! SUPPORT. What creating a shared context, a move, an attach and a detach can do, said once each. -/

namespace Sys2Proof.Machine

variable {b b' : SharedBus} {k n : Nat} {s : State}

/-! ### The state an instance moves from -/

@[simp] theorem SharedBus.seenBy_cfg : (b.seenBy k s).cfg = b.cfg := rfl
@[simp] theorem SharedBus.seenBy_lock : (b.seenBy k s).lock = b.lockSeenBy k := rfl
@[simp] theorem SharedBus.seenBy_draws : (b.seenBy k s).draws = b.draws := rfl
@[simp] theorem SharedBus.seenBy_ds : (b.seenBy k s).ds = s.ds := rfl
@[simp] theorem SharedBus.seenBy_sys : (b.seenBy k s).sys = s.sys := rfl
@[simp] theorem SharedBus.seenBy_sub : (b.seenBy k s).sub = s.sub := rfl
@[simp] theorem SharedBus.seenBy_rep : (b.seenBy k s).rep = s.rep := rfl
@[simp] theorem SharedBus.seenBy_tunedFreq : (b.seenBy k s).tunedFreq = s.tunedFreq := rfl
@[simp] theorem SharedBus.seenBy_tunedBw : (b.seenBy k s).tunedBw = s.tunedBw := rfl
@[simp] theorem SharedBus.seenBy_tunedValid : (b.seenBy k s).tunedValid = s.tunedValid := rfl
@[simp] theorem SharedBus.seenBy_faultReason : (b.seenBy k s).faultReason = s.faultReason := rfl
@[simp] theorem SharedBus.seenBy_run : (b.seenBy k s).run = s.run := rfl
@[simp] theorem SharedBus.seenBy_port : (b.seenBy k s).port = s.port := rfl
@[simp] theorem SharedBus.seenBy_resp : (b.seenBy k s).resp = s.resp := rfl
@[simp] theorem SharedBus.seenBy_env : (b.seenBy k s).env = s.env := rfl
@[simp] theorem SharedBus.seenBy_refused : (b.seenBy k s).refused = s.refused := rfl
@[simp] theorem SharedBus.seenBy_history : (b.seenBy k s).history = s.history := rfl

theorem SharedBus.lockSeenBy_held : b.lockSeenBy k = .held ↔ b.owner = some k := by
  unfold SharedBus.lockSeenBy
  cases b.owner with
  | none => simp
  | some j => by_cases h : j = k <;> simp [h]

/-! ### Instances by number -/

theorem SharedBus.instanceAt_iff : b.instanceAt k = some s ↔ b.instances[k]? = some (some s) := by
  simp [SharedBus.instanceAt, Option.join_eq_some_iff]

theorem SharedBus.instanceAt_lt (h : b.instanceAt k = some s) : k < b.instances.length :=
  (List.getElem?_eq_some_iff.mp (SharedBus.instanceAt_iff.mp h)).1

/-- Writing one place of the list of instances leaves the others as they are. -/
theorem SharedBus.instanceAt_set {o : Option State} (h : b'.instances = b.instances.set k o) (hk : k < b.instances.length) (n : Nat) :
    b'.instanceAt n = if n = k then o else b.instanceAt n := by
  unfold SharedBus.instanceAt
  rw [h, List.getElem?_set]
  by_cases e : n = k
  · subst e; simp [hk]
  · simp [e, Ne.symm e]

/-- An attach adds one instance at the next number. -/
theorem SharedBus.join_instanceAt (n : Nat) :
    b.join.instanceAt n = if n = b.instances.length then some (State.attach b.cfg) else b.instanceAt n := by
  unfold SharedBus.instanceAt SharedBus.join
  rw [List.getElem?_append]
  split
  · next h => simp [Nat.ne_of_lt h]
  · next h =>
    by_cases e : n = b.instances.length
    · simp [e]
    · have : n - b.instances.length ≠ 0 := by omega
      rw [if_neg e, List.getElem?_eq_none (by simp; omega), List.getElem?_eq_none (by omega)]

/-! ### What the actions can do -/

/-- A new context has one instance, right after attach, and a configuration that R338 accepts. -/
theorem SharedBus.create_eq_next (c : Config) (b : SharedBus) :
    SharedBus.create c = .next b ↔ configWf c = true ∧
      b = { cfg := c, instances := [some (State.attach c)], owner := none, draws := 0, busHistory := [] } := by
  unfold SharedBus.create attach
  cases configWf c <;> simp [eq_comm]

/-- A move of a number with no instance changes nothing; any other is a step of that instance from what it sees. -/
theorem SharedBus.move_cases (h : b.move k = .next b') :
    (b.instanceAt k = none ∧ b' = b) ∨
    ∃ s t, b.instanceAt k = some s ∧ step (b.seenBy k s) = .next t ∧
      b' = { b with
        instances := b.instances.set k (some t)
        owner := b.ownerAfter k t.lock
        draws := t.draws
        busHistory := b.busHistory ++ (t.history.drop s.history.length).map fun e => (k, e) } := by
  unfold SharedBus.move at h
  split at h
  · exact .inl ⟨‹_›, by cases h; rfl⟩
  · next s hs =>
    split at h
    · next t ht => exact .inr ⟨s, t, hs, ht, by cases h; rfl⟩
    · cases h
    · cases h

/-- A detach of a context that goes on: no instance there, or one that runs, and nothing changes; or that instance is gone. -/
theorem SharedBus.detach_cases (h : b.detach k = some b') :
    b' = b ∨
    ∃ s, b.instanceAt k = some s ∧ s.run = none ∧ b' = { b with instances := b.instances.set k none } ∧
      ∃ n u, b'.instanceAt n = some u := by
  unfold SharedBus.detach at h
  split at h
  · exact .inl (by cases h; rfl)
  · next s hs =>
    split at h
    · exact .inl (by cases h; rfl)
    · next hr =>
      split at h
      · next ha =>
        obtain rfl := Option.some.inj h
        refine .inr ⟨s, hs, by simpa using hr, rfl, ?_⟩
        obtain ⟨o, ho, hsome⟩ := List.any_eq_true.mp ha
        obtain ⟨n, hn, e⟩ := List.getElem_of_mem ho
        obtain ⟨u, rfl⟩ := Option.isSome_iff_exists.mp hsome
        exact ⟨n, u, SharedBus.instanceAt_iff.mpr (List.getElem?_eq_some_iff.mpr ⟨hn, e⟩)⟩
      · cases h

end Sys2Proof.Machine
end

