-- ==== Sys2Proof/Laws/Ops.lean ====
section
/-! SUPPORT. What a procedure over the external primitives can do to the state, said once: it takes answers, appends events
and sets REP, and nothing else. Every procedure of the model is shown to be one. -/

namespace Sys2Proof.Machine

/-- `t` is `s` after some primitives of R20: only the answers to come, the draw counter, the history (which grows) and REP
differ. -/
def BusOnly (s t : State) : Prop :=
  ∃ rep env draws es, t = { s with rep := rep, env := env, draws := draws, history := s.history ++ es }

namespace BusOnly

variable {s t u : State}

theorem refl (s : State) : BusOnly s s := ⟨s.rep, s.env, s.draws, [], by simp⟩

theorem trans (h : BusOnly s t) (k : BusOnly t u) : BusOnly s u := by
  obtain ⟨r, e, d, es, rfl⟩ := h
  obtain ⟨r', e', d', es', rfl⟩ := k
  exact ⟨r', e', d', es ++ es', by simp⟩

theorem cfg (h : BusOnly s t) : t.cfg = s.cfg := by obtain ⟨_, _, _, _, rfl⟩ := h; rfl
theorem refused (h : BusOnly s t) : t.refused = s.refused := by obtain ⟨_, _, _, _, rfl⟩ := h; rfl
theorem ds (h : BusOnly s t) : t.ds = s.ds := by obtain ⟨_, _, _, _, rfl⟩ := h; rfl
theorem sys (h : BusOnly s t) : t.sys = s.sys := by obtain ⟨_, _, _, _, rfl⟩ := h; rfl
theorem sub (h : BusOnly s t) : t.sub = s.sub := by obtain ⟨_, _, _, _, rfl⟩ := h; rfl
theorem tunedFreq (h : BusOnly s t) : t.tunedFreq = s.tunedFreq := by obtain ⟨_, _, _, _, rfl⟩ := h; rfl
theorem tunedBw (h : BusOnly s t) : t.tunedBw = s.tunedBw := by obtain ⟨_, _, _, _, rfl⟩ := h; rfl
theorem tunedValid (h : BusOnly s t) : t.tunedValid = s.tunedValid := by obtain ⟨_, _, _, _, rfl⟩ := h; rfl
theorem faultReason (h : BusOnly s t) : t.faultReason = s.faultReason := by obtain ⟨_, _, _, _, rfl⟩ := h; rfl
theorem run (h : BusOnly s t) : t.run = s.run := by obtain ⟨_, _, _, _, rfl⟩ := h; rfl
theorem lock (h : BusOnly s t) : t.lock = s.lock := by obtain ⟨_, _, _, _, rfl⟩ := h; rfl
theorem port (h : BusOnly s t) : t.port = s.port := by obtain ⟨_, _, _, _, rfl⟩ := h; rfl
theorem resp (h : BusOnly s t) : t.resp = s.resp := by obtain ⟨_, _, _, _, rfl⟩ := h; rfl

theorem history (h : BusOnly s t) : ∃ es, t.history = s.history ++ es := by
  obtain ⟨_, _, _, es, rfl⟩ := h; exact ⟨es, rfl⟩

end BusOnly

/-! ### The primitives -/

theorem State.drawn_busOnly (s : State) : BusOnly s s.drawn := by
  unfold State.drawn
  split
  · exact ⟨s.rep, _, s.draws, [], by simp; rfl⟩
  · exact ⟨s.rep, s.env, _, [], by simp; rfl⟩

theorem State.record_busOnly (s : State) (e : Event) : BusOnly s (s.record e) :=
  ⟨s.rep, s.env, s.draws, [e], rfl⟩

/-- A write succeeds or fails as the environment answers; either way it is one event. -/
theorem busWrite_cases (a : BusAddr) (r v : Byte) (s : State) :
    (s.answer.isOk = true ∧ busWrite a r v s = .ok () (s.drawn.record (.busWrite a r [v] true))) ∨
    (s.answer.isOk = false ∧ busWrite a r v s = .err (s.drawn.record (.busWrite a r [v] false))) := by
  unfold busWrite Answer.isOk
  cases s.answer <;> simp

/-- A read succeeds or fails as the environment answers; either way it is one event. -/
theorem busRead_cases (a : BusAddr) (r : Byte) (n : Nat) (s : State) :
    (∃ bytes, s.answer.isOk = true ∧ bytes.length ≤ n ∧
      busRead a r n s = .ok bytes (s.drawn.record (.busRead a r n (some bytes)))) ∨
    (s.answer.isOk = false ∧ busRead a r n s = .err (s.drawn.record (.busRead a r n none))) := by
  unfold busRead Answer.isOk
  cases s.answer
  · simp
  · exact .inl ⟨_, rfl, by simp [firstBytes], rfl⟩

theorem readByte_cases (a : BusAddr) (r : Byte) (s : State) :
    (∃ b, s.answer.isOk = true ∧ readByte a r s = .ok b (s.drawn.record (.busRead a r 1 (some [b])))) ∨
    (s.answer.isOk = false ∧ readByte a r s = .err (s.drawn.record (.busRead a r 1 none))) := by
  unfold readByte Answer.isOk
  cases s.answer
  · simp
  · exact .inl ⟨_, rfl, rfl⟩

theorem setRepeater_cases (b : Bool) (s : State) :
    (s.answer.isOk = true ∧ setRepeater b s = .ok () { s.drawn.record (.setRepeater b true) with rep := b }) ∨
    (s.answer.isOk = false ∧ setRepeater b s = .err (s.drawn.record (.setRepeater b false))) := by
  unfold setRepeater Answer.isOk
  cases s.answer <;> simp

theorem busWrite_busOnly (a : BusAddr) (r v : Byte) (s : State) : BusOnly s (busWrite a r v s).state := by
  rcases busWrite_cases a r v s with ⟨-, h⟩ | ⟨-, h⟩ <;> rw [h] <;>
    exact s.drawn_busOnly.trans (State.record_busOnly _ _)

theorem busRead_busOnly (a : BusAddr) (r : Byte) (n : Nat) (s : State) : BusOnly s (busRead a r n s).state := by
  rcases busRead_cases a r n s with ⟨_, -, -, h⟩ | ⟨-, h⟩ <;> rw [h] <;>
    exact s.drawn_busOnly.trans (State.record_busOnly _ _)

theorem readByte_busOnly (a : BusAddr) (r : Byte) (s : State) : BusOnly s (readByte a r s).state := by
  rcases readByte_cases a r s with ⟨_, -, h⟩ | ⟨-, h⟩ <;> rw [h] <;>
    exact s.drawn_busOnly.trans (State.record_busOnly _ _)

theorem setRepeater_busOnly (b : Bool) (s : State) : BusOnly s (setRepeater b s).state := by
  have h := s.drawn_busOnly.trans (State.record_busOnly _ (.setRepeater b true))
  rcases setRepeater_cases b s with ⟨-, k⟩ | ⟨-, k⟩ <;> rw [k]
  · obtain ⟨_, e, d, es, h⟩ := h
    exact ⟨b, e, d, es, by simp only [Res.state, h]⟩
  · exact s.drawn_busOnly.trans (State.record_busOnly _ _)

/-- A repeater call that succeeds leaves REP at its argument (R36). -/
theorem setRepeater_ok_rep {b : Bool} {s t : State} {u : Unit} (h : setRepeater b s = .ok u t) : t.rep = b := by
  rcases setRepeater_cases b s with ⟨-, k⟩ | ⟨-, k⟩ <;> rw [k] at h <;> cases h
  rfl

/-! ### Composition -/

theorem Res.bind_busOnly {α β : Type} {s : State} {r : Res α} {f : α → State → Res β} (h : BusOnly s r.state)
    (k : ∀ a t, BusOnly t (f a t).state) : BusOnly s (r.bind f).state := by
  cases r with
  | ok a t => exact h.trans (k a t)
  | err t => exact h

theorem setBitsOp_busOnly (a : BusAddr) (r v m : Byte) (s : State) : BusOnly s (setBitsOp a r v m s).state := by
  unfold setBitsOp
  split
  · exact .refl s
  · split
    · exact busWrite_busOnly ..
    · exact Res.bind_busOnly (readByte_busOnly ..) fun _ _ => busWrite_busOnly ..

theorem setBankedBitsOp_busOnly (a : BusAddr) (bank r v m : Byte) (s : State) :
    BusOnly s (setBankedBitsOp a bank r v m s).state :=
  Res.bind_busOnly (busWrite_busOnly ..) fun _ _ => setBitsOp_busOnly ..

theorem selectBank_busOnly (a : BusAddr) (bank : Option Byte) (s : State) : BusOnly s (selectBank a bank s).state := by
  cases bank
  · exact .refl s
  · exact busWrite_busOnly ..

theorem readField_busOnly (f : RegField) (s : State) : BusOnly s (readField f s).state :=
  Res.bind_busOnly (selectBank_busOnly ..) fun _ _ => Res.bind_busOnly (busRead_busOnly ..) fun _ t => .refl t

theorem accessOp_busOnly (a : Access) (v : Byte) (s : State) : BusOnly s (accessOp a v s).state := by
  unfold accessOp
  split
  · exact setBankedBitsOp_busOnly ..
  · exact setBitsOp_busOnly ..

theorem readEntry_busOnly (a : Access) (s : State) : BusOnly s (readEntry a s).state :=
  Res.bind_busOnly (selectBank_busOnly ..) fun _ _ => readByte_busOnly ..

theorem abandonRepeater_busOnly (s : State) : BusOnly s (abandonRepeater s) := setRepeater_busOnly false s

theorem closeRepeater_busOnly (s : State) : BusOnly s (closeRepeater s).state := setRepeater_busOnly false s

theorem openRepeater_busOnly (s : State) : BusOnly s (openRepeater s).state := by
  have h := setRepeater_busOnly true s
  unfold openRepeater
  generalize setRepeater true s = r at h
  cases r with
  | ok _ t => exact h
  | err t => exact h.trans (setRepeater_busOnly false t)

/-- A bracket that opened has the repeater on (R220). -/
theorem openRepeater_ok_rep {s t : State} {u : Unit} (h : openRepeater s = .ok u t) : t.rep = true := by
  unfold openRepeater at h
  cases hr : setRepeater true s with
  | ok _ w => rw [hr] at h; cases h; exact setRepeater_ok_rep hr
  | err w => rw [hr] at h; cases h

/-- A bracket that closed has the repeater off (R220). -/
theorem closeRepeater_ok_rep {s t : State} {u : Unit} (h : closeRepeater s = .ok u t) : t.rep = false :=
  setRepeater_ok_rep h

theorem withRepeater_busOnly {p : State → Res Unit} (hp : ∀ s, BusOnly s (p s).state) (s : State) :
    BusOnly s (withRepeater p s).state := by
  have h := openRepeater_busOnly s
  unfold withRepeater
  generalize openRepeater s = r at h
  cases r with
  | err t => exact h
  | ok _ t =>
    have k := hp t
    show BusOnly s (match p t with
      | .err s => Res.err (abandonRepeater s)
      | .ok _ s => closeRepeater s).state
    generalize p t = q at k
    cases q with
    | err u => exact (h.trans k).trans (abandonRepeater_busOnly u)
    | ok _ u => exact (h.trans k).trans (closeRepeater_busOnly u)

theorem onTarget_busOnly (tgt : Target) {p : State → Res Unit} (hp : ∀ s, BusOnly s (p s).state) (s : State) :
    BusOnly s (onTarget tgt p s).state := by
  cases tgt
  · exact hp s
  · exact withRepeater_busOnly hp s

/-! ### READ_STATUS -/

theorem readLock_busOnly (l : List (RegField × Word)) (s : State) : BusOnly s (readLock l s).state := by
  induction l generalizing s with
  | nil => exact .refl s
  | cons p rest ih =>
    exact Res.bind_busOnly (readField_busOnly ..) fun _ _ => Res.bind_busOnly (ih _) fun _ t => .refl t

theorem readSymrate_busOnly (s : State) : BusOnly s (readSymrate s).state := by
  unfold readSymrate
  split
  · exact readField_busOnly ..
  · exact .refl s

theorem readCnr_busOnly (sy : System) (full : Bool) (s : State) : BusOnly s (readCnr sy full s).state := by
  cases full
  · exact .refl s
  · cases sy
    · exact Res.bind_busOnly (readField_busOnly ..) fun _ t => .refl t
    · exact Res.bind_busOnly (readSymrate_busOnly s) fun _ _ => Res.bind_busOnly (readField_busOnly ..) fun _ t => .refl t
    · exact Res.bind_busOnly (readSymrate_busOnly s) fun _ _ => Res.bind_busOnly (readField_busOnly ..) fun _ t => .refl t

theorem readPer_busOnly (sy : System) (s : State) : BusOnly s (readPer sy s).state := by
  cases sy
  · exact Res.bind_busOnly (readField_busOnly ..) fun _ _ => Res.bind_busOnly (readField_busOnly ..) fun _ t => .refl t
  · exact .refl s
  · exact .refl s

theorem statusWords_busOnly (sy : System) (s : State) : BusOnly s (statusWords sy s).state :=
  Res.bind_busOnly (readLock_busOnly ..) fun _ _ => Res.bind_busOnly (readField_busOnly ..) fun _ _ =>
    Res.bind_busOnly (readCnr_busOnly ..) fun _ _ => Res.bind_busOnly (readPer_busOnly ..) fun _ t => .refl t

/-! ### Accesses to one target -/

/-- `t` is `s` after some reads and writes of registers at bus address `a`: REP is as it was, and every event is an access
to `a`. -/
def AccessOnly (a : BusAddr) (s t : State) : Prop :=
  ∃ env draws es, (∀ e ∈ es, e.accesses a = true) ∧
    t = { s with env := env, draws := draws, history := s.history ++ es }

namespace AccessOnly

variable {a : BusAddr} {s t u : State}

theorem refl (a : BusAddr) (s : State) : AccessOnly a s s := ⟨s.env, s.draws, [], by simp, by simp⟩

theorem trans (h : AccessOnly a s t) (k : AccessOnly a t u) : AccessOnly a s u := by
  obtain ⟨e, d, es, he, rfl⟩ := h
  obtain ⟨e', d', es', he', rfl⟩ := k
  refine ⟨e', d', es ++ es', fun x hx => ?_, by simp⟩
  rcases List.mem_append.mp hx with hx | hx
  · exact he x hx
  · exact he' x hx

theorem busOnly (h : AccessOnly a s t) : BusOnly s t := by
  obtain ⟨e, d, es, -, rfl⟩ := h
  exact ⟨s.rep, e, d, es, rfl⟩

theorem rep (h : AccessOnly a s t) : t.rep = s.rep := by obtain ⟨_, _, _, _, rfl⟩ := h; rfl

end AccessOnly

theorem State.drawn_record_accessOnly {a : BusAddr} (s : State) {e : Event} (he : e.accesses a = true) :
    AccessOnly a s (s.drawn.record e) := by
  have h : AccessOnly a s s.drawn := by
    unfold State.drawn
    split
    · exact ⟨_, s.draws, [], by simp, by simp; rfl⟩
    · exact ⟨s.env, _, [], by simp, by simp; rfl⟩
  exact h.trans ⟨_, _, [e], by simpa using he, rfl⟩

theorem busWrite_accessOnly (a : BusAddr) (r v : Byte) (s : State) : AccessOnly a s (busWrite a r v s).state := by
  rcases busWrite_cases a r v s with ⟨-, h⟩ | ⟨-, h⟩ <;> rw [h] <;>
    exact s.drawn_record_accessOnly (by simp [Event.accesses])

theorem busRead_accessOnly (a : BusAddr) (r : Byte) (n : Nat) (s : State) :
    AccessOnly a s (busRead a r n s).state := by
  rcases busRead_cases a r n s with ⟨_, -, -, h⟩ | ⟨-, h⟩ <;> rw [h] <;>
    exact s.drawn_record_accessOnly (by simp [Event.accesses])

theorem readByte_accessOnly (a : BusAddr) (r : Byte) (s : State) : AccessOnly a s (readByte a r s).state := by
  rcases readByte_cases a r s with ⟨_, -, h⟩ | ⟨-, h⟩ <;> rw [h] <;>
    exact s.drawn_record_accessOnly (by simp [Event.accesses])

theorem Res.bind_accessOnly {α β : Type} {a : BusAddr} {s : State} {r : Res α} {f : α → State → Res β}
    (h : AccessOnly a s r.state) (k : ∀ x t, AccessOnly a s t → AccessOnly a t (f x t).state) :
    AccessOnly a s (r.bind f).state := by
  cases r with
  | ok x t => exact h.trans (k x t h)
  | err t => exact h

theorem setBitsOp_accessOnly (a : BusAddr) (r v m : Byte) (s : State) :
    AccessOnly a s (setBitsOp a r v m s).state := by
  unfold setBitsOp
  split
  · exact .refl a s
  · split
    · exact busWrite_accessOnly ..
    · exact Res.bind_accessOnly (readByte_accessOnly ..) fun _ _ _ => busWrite_accessOnly ..

theorem setBankedBitsOp_accessOnly (a : BusAddr) (bank r v m : Byte) (s : State) :
    AccessOnly a s (setBankedBitsOp a bank r v m s).state :=
  Res.bind_accessOnly (busWrite_accessOnly ..) fun _ _ _ => setBitsOp_accessOnly ..

theorem selectBank_accessOnly (a : BusAddr) (bank : Option Byte) (s : State) :
    AccessOnly a s (selectBank a bank s).state := by
  cases bank
  · exact .refl a s
  · exact busWrite_accessOnly ..

theorem accessOp_accessOnly (a : Access) (v : Byte) (s : State) :
    AccessOnly (s.cfg.addr a.tgt) s (accessOp a v s).state := by
  unfold accessOp
  split
  · exact setBankedBitsOp_accessOnly ..
  · exact setBitsOp_accessOnly ..

theorem readEntry_accessOnly (a : Access) (s : State) :
    AccessOnly (s.cfg.addr a.tgt) s (readEntry a s).state := by
  refine Res.bind_accessOnly (selectBank_accessOnly ..) fun _ t h => ?_
  rw [h.busOnly.cfg]
  exact readByte_accessOnly ..

theorem readField_accessOnly (f : RegField) (s : State) :
    AccessOnly (s.cfg.addr f.tgt) s (readField f s).state := by
  refine Res.bind_accessOnly (selectBank_accessOnly ..) fun _ t h => ?_
  rw [h.busOnly.cfg]
  exact Res.bind_accessOnly (busRead_accessOnly ..) fun _ _ _ => .refl ..

end Sys2Proof.Machine
end

