-- ==== Sys2Proof/Laws/Control.lean ====
section
/-! SUPPORT. What follows a sequence's END and what a failed entry leaves, said once for each procedure of
Machine/Control.lean; and what a model fault and a response leave of the invariant's fields. -/

namespace Sys2Proof.Machine

/-- A bracket opens with the repeater on, or the command ends with HARDWARE_IO_ERROR. -/
theorem enterTuner_cases (r : Run) (req : TuneReq) (s : State) :
    (∃ t, BusOnly s t ∧ enterTuner r req s = raiseStatus .hardwareIoError 0 t) ∨
    (∃ t, BusOnly s t ∧ t.rep = true ∧
      ((s.sub ≠ subModeOf req.target ∧ enterTuner r req s = gotoPhase r (.tuneReset req) t) ∨
       (s.sub = subModeOf req.target ∧ enterTuner r req s = enterFreq r req t))) := by
  have h := openRepeater_busOnly s
  cases ho : openRepeater s with
  | err t => rw [ho] at h; exact .inl ⟨t, h, by simp [enterTuner, ho]⟩
  | ok u t =>
    rw [ho] at h
    refine .inr ⟨t, h, openRepeater_ok_rep ho, ?_⟩
    have hs : t.sub = s.sub := h.sub
    by_cases hn : s.sub = subModeOf req.target
    · exact .inr ⟨hn, by simp [enterTuner, ho, hs, hn]⟩
    · exact .inl ⟨hn, by simp [enterTuner, ho, hs, hn]⟩

theorem enterColdboot_cases (r : Run) (s : State) :
    (∃ t, BusOnly s t ∧ enterColdboot r s = raiseStatus .hardwareIoError 0 t) ∨
    (∃ t, BusOnly s t ∧ t.rep = true ∧ enterColdboot r s = gotoPhase r .initTuner t) := by
  have h := openRepeater_busOnly s
  cases ho : openRepeater s with
  | err t => rw [ho] at h; exact .inl ⟨t, h, by simp [enterColdboot, ho]⟩
  | ok u t => rw [ho] at h; exact .inr ⟨t, h, openRepeater_ok_rep ho, by simp [enterColdboot, ho]⟩

theorem finishInit_cases (s : State) :
    (∃ t, BusOnly s t ∧ finishInit s = raiseStatus .hardwareIoError 0 t) ∨
    (∃ t, BusOnly s t ∧ t.rep = false ∧ finishInit s = respond .ok [] (sleepFields t)) := by
  have h := closeRepeater_busOnly s
  cases ho : closeRepeater s with
  | err t => rw [ho] at h; exact .inl ⟨t, h, by simp [finishInit, ho]⟩
  | ok u t => rw [ho] at h; exact .inr ⟨t, h, closeRepeater_ok_rep ho, by simp [finishInit, ho]⟩

theorem finishTune_cases (req : TuneReq) (s : State) :
    (∃ t, BusOnly s t ∧ finishTune req s = raiseStatus .hardwareIoError 0 t) ∨
    (∃ t, BusOnly s t ∧ t.rep = false ∧
      finishTune req s =
        respond .ok [] (if req.same then latchTuned req t else { latchTuned req t with ds := .active })) := by
  have h := closeRepeater_busOnly s
  cases ho : closeRepeater s with
  | err t => rw [ho] at h; exact .inl ⟨t, h, by simp [finishTune, ho]⟩
  | ok u t =>
    rw [ho] at h
    refine .inr ⟨t, h, closeRepeater_ok_rep ho, ?_⟩
    simp only [finishTune, ho]
    split <;> rfl

/-- A failed entry ends the command with its status; inside a bracket the repeater-off call is made first (R226). -/
theorem failSequence_cases (st : Status) (r : Run) (s : State) :
    ∃ t, BusOnly s t ∧ failSequence st r s = raiseStatus st 0 t := by
  unfold failSequence
  split
  · exact ⟨_, abandonRepeater_busOnly s, rfl⟩
  · exact ⟨s, .refl s, rfl⟩

/-- After an access the sequencer goes on to the next entry, or the command ends with HARDWARE_IO_ERROR. -/
theorem afterAccess_cases (a : BusAddr) (r : Run) {s : State} {res : Res Unit} (h : AccessOnly a s res.state) :
    (∃ t, AccessOnly a s t ∧ afterAccess r res = advance r t) ∨
    (∃ t, BusOnly s t ∧ afterAccess r res = raiseStatus .hardwareIoError 0 t) := by
  cases res with
  | ok _ t => exact .inl ⟨t, h, rfl⟩
  | err t =>
    obtain ⟨u, hu, e⟩ := failSequence_cases .hardwareIoError r t
    exact .inr ⟨u, h.busOnly.trans hu, e⟩

theorem afterPoll_cases (a : BusAddr) (m : Byte) (r : Run) {s : State} {res : Res Byte} (h : AccessOnly a s res.state) :
    (∃ t, AccessOnly a s t ∧ afterPoll m r res = advance r t) ∨
    (∃ t st, BusOnly s t ∧ st ≠ .ok ∧ afterPoll m r res = raiseStatus st 0 t) := by
  cases res with
  | ok b t =>
    by_cases hb : b &&& m = 0
    · exact .inl ⟨t, h, if_pos hb⟩
    · obtain ⟨u, hu, e⟩ := failSequence_cases .tunerInitError r t
      exact .inr ⟨u, .tunerInitError, h.busOnly.trans hu, by decide, (if_neg hb).trans e⟩
  | err t =>
    obtain ⟨u, hu, e⟩ := failSequence_cases .hardwareIoError r t
    exact .inr ⟨u, .hardwareIoError, h.busOnly.trans hu, by decide, e⟩

/-- A command of one pure computation responds OK, faults, or meets a configuration that R338 refuses. -/
theorem finish_cases (c : Calc (List Word)) (s : State) :
    (∃ ws, c = .value ws ∧ finish c s = .next (respond .ok ws s)) ∨
    (∃ r, c = .fault r ∧ finish c s = .next (raiseFault r s)) ∨
    (∃ d, c = .illFormed d ∧ finish c s = .refused (.illFormedConfig d)) := by
  cases c with
  | value ws => exact .inl ⟨ws, rfl, rfl⟩
  | fault r => exact .inr (.inl ⟨r, rfl, rfl⟩)
  | illFormed d => exact .inr (.inr ⟨d, rfl, rfl⟩)

/-- A bit-field command responds OK, or BUS_ERROR. -/
theorem finishBits_cases (r : Res Unit) :
    (r.isOk = true ∧ finishBits r = respond .ok [] r.state) ∨
    (r.isOk = false ∧ finishBits r = raiseStatus .busError 0 r.state) := by
  cases r with
  | ok _ t => exact .inl ⟨rfl, rfl⟩
  | err t => exact .inr ⟨rfl, rfl⟩

end Sys2Proof.Machine
end

