-- ==== Sys2Proof/Laws/Encoding.lean ====
section
/-! SUPPORT. The packing of words and entries: taking the fields out of what was packed gives them back, and packing the
fields of a word gives the word back (R91, R92, R103). The decoder and encoder proofs cite these and never open a word. -/

namespace Sys2Proof

/-- The opcode of a packed command word (R91). -/
@[simp] theorem commandWord_opcode (opc : Byte) (low : BitVec 24) : (commandWord opc low).extractLsb' 24 8 = opc := by
  apply BitVec.eq_of_getLsbD_eq
  intro i hi
  simp only [commandWord, BitVec.getLsbD_extractLsb', BitVec.getLsbD_append]
  interval_cases i <;> simp

/-- W0[23:0] of a packed command word (R91). -/
@[simp] theorem commandWord_low (opc : Byte) (low : BitVec 24) : (commandWord opc low).extractLsb' 0 24 = low := by
  apply BitVec.eq_of_getLsbD_eq
  intro i hi
  simp only [commandWord, BitVec.getLsbD_extractLsb', BitVec.getLsbD_append]
  interval_cases i <;> simp

/-- Packing a word's opcode and W0[23:0] gives the word. -/
@[simp] theorem commandWord_of_word (w : Word) : commandWord (w.extractLsb' 24 8) (w.extractLsb' 0 24) = w := by
  apply BitVec.eq_of_getLsbD_eq
  intro i hi
  simp only [commandWord, BitVec.getLsbD_append, BitVec.getLsbD_extractLsb']
  interval_cases i <;> simp

/-- The fields of a packed entry (R103). -/
@[simp] theorem EntryFields.ofWord_toWord (f : EntryFields) : EntryFields.ofWord f.toWord = f := by
  rcases f with ⟨kind, reservedHi, b, tgt, bank, reg, val, mask, reservedLo, arg⟩
  simp only [EntryFields.ofWord, EntryFields.toWord, EntryFields.mk.injEq]
  refine ⟨?_, ?_, ?_, ?_, ?_, ?_, ?_, ?_, ?_, ?_⟩ <;>
    (apply BitVec.eq_of_getLsbD_eq
     intro i hi
     simp only [BitVec.getLsbD_extractLsb', BitVec.getLsbD_append]
     interval_cases i <;> simp)

/-- Packing an entry's fields gives the entry (R103). -/
@[simp] theorem EntryFields.toWord_ofWord (e : RomWord) : (EntryFields.ofWord e).toWord = e := by
  apply BitVec.eq_of_getLsbD_eq
  intro i hi
  simp only [EntryFields.ofWord, EntryFields.toWord, BitVec.getLsbD_append, BitVec.getLsbD_extractLsb']
  interval_cases i <;> simp

/-- Masking a packed entry masks each field. -/
theorem EntryFields.toWord_and (f g : EntryFields) : f.toWord &&& g.toWord = EntryFields.toWord {
    kind := f.kind &&& g.kind
    reservedHi := f.reservedHi &&& g.reservedHi
    b := f.b &&& g.b
    tgt := f.tgt &&& g.tgt
    bank := f.bank &&& g.bank
    reg := f.reg &&& g.reg
    val := f.val &&& g.val
    mask := f.mask &&& g.mask
    reservedLo := f.reservedLo &&& g.reservedLo
    arg := f.arg &&& g.arg } := by
  apply BitVec.eq_of_getLsbD_eq
  intro i hi
  simp only [EntryFields.toWord, BitVec.getLsbD_append, BitVec.getLsbD_and]
  interval_cases i <;> simp

/-- TGT read back from its bit (R92, R103). -/
@[simp] theorem Target.ofBit_bit (t : Target) : Target.ofBit t.bit = t := by cases t <;> rfl

/-- A WRV source read back from its code (R105). -/
@[simp] theorem Source.ofCode_code (s : Source) : Source.ofCode s.code = some s := by
  cases s with
  | bandp k => revert k; decide
  | tunerbw k => revert k; decide
  | freqw0 | freqw1 | freqw2 | clockMode | dutyMode | period | ifClockSelect => decide

end Sys2Proof
end

