-- ==== Sys2Proof/Laws/Metrics.lean ====
section
/-! SUPPORT. What CNR_S_TABLE_SELECT can return (R300). -/

namespace Sys2Proof

/-- Of the rates of a list, none is reached, or there is a greatest one that is. -/
theorem greatest_reached (l : List (Word × Nat)) (sr : Word) :
    (∀ p ∈ l, sr.toNat < p.1.toNat) ∨
    ∃ q ∈ l, q.1.toNat ≤ sr.toNat ∧ ∀ p ∈ l, p.1.toNat ≤ sr.toNat → p.1.toNat ≤ q.1.toNat := by
  induction l with
  | nil => simp
  | cons x l ih =>
    by_cases hx : x.1.toNat ≤ sr.toNat
    · right
      rcases ih with h | ⟨q, hq, hqs, hmax⟩
      · refine ⟨x, by simp, hx, fun p hp hps => ?_⟩
        rcases List.mem_cons.mp hp with rfl | hp
        · exact le_rfl
        · exact absurd hps (Nat.not_le.mpr (h p hp))
      · by_cases hqx : q.1.toNat ≤ x.1.toNat
        · refine ⟨x, by simp, hx, fun p hp hps => ?_⟩
          rcases List.mem_cons.mp hp with rfl | hp
          · exact le_rfl
          · exact (hmax p hp hps).trans hqx
        · refine ⟨q, by simp [hq], hqs, fun p hp hps => ?_⟩
          rcases List.mem_cons.mp hp with rfl | hp
          · omega
          · exact hmax p hp hps
    · rcases ih with h | ⟨q, hq, hqs, hmax⟩
      · exact .inl fun p hp => (List.mem_cons.mp hp).elim (fun e => by subst e; omega) (h p)
      · refine .inr ⟨q, by simp [hq], hqs, fun p hp hps => ?_⟩
        rcases List.mem_cons.mp hp with rfl | hp
        · exact absurd hps hx
        · exact hmax p hp hps

/-- The selection returns what it returns at rate 0 or at one of its thresholds. -/
theorem CnrSelect.tableId_cases (c : CnrSelect) (sr : Word) :
    c.tableId sr = c.tableId 0 ∨ ∃ q ∈ c.thresholds, c.tableId sr = c.tableId q.1 := by
  unfold CnrSelect.tableId
  rcases greatest_reached c.thresholds sr with h | ⟨q, hq, hqs, hmax⟩
  · refine .inl (List.foldl_ext _ _ _ fun id p hp => ?_)
    have := h p hp
    rw [if_neg (by omega), if_neg (by simp; omega)]
  · refine .inr ⟨q, hq, List.foldl_ext _ _ _ fun id p hp => ?_⟩
    have := hmax p hp
    by_cases hps : p.1.toNat ≤ sr.toNat
    · rw [if_pos hps, if_pos (this hps)]
    · rw [if_neg hps, if_neg (by omega)]

/-- R300: a selection is well formed exactly when every id it can return is the id of a table. -/
theorem CnrSelect.wf_iff (n : Nat) (c : CnrSelect) : c.wf n = true ↔ ∀ sr, c.tableId sr < n := by
  simp only [CnrSelect.wf, Bool.and_eq_true, decide_eq_true_eq, List.all_eq_true]
  refine ⟨fun ⟨h0, ht⟩ sr => ?_, fun h => ⟨h 0, fun p _ => h p.1⟩⟩
  rcases c.tableId_cases sr with e | ⟨q, hq, e⟩ <;> rw [e]
  · exact h0
  · exact ht q hq

end Sys2Proof
end

