-- ==== Sys2Proof/Laws/PerInstr.lean ====
section
/-! SUPPORT. For every instruction, its encoding against its row of spec/opcode_table.json: the row's fixed bits, read through
its mask, and its number of operand words. One lemma for each constructor. -/

namespace Sys2Proof.Laws

/-- What a row of spec/opcode_table.json fixes. -/
inductive TableRow where
  | command (pattern mask : Word) (operandWords : Nat)
  | romEntry (pattern mask : RomWord)

/-- The row of an instruction. -/
def tableRow : Instr → TableRow
  | .log2 _ => .command 0x01000000 0xFFFFFFFF 1
  | .log10 _ => .command 0x02000000 0xFFFFFFFF 1
  | .sext _ _ => .command 0x03000000 0xFFFFFFC0 1
  | .tlookup _ _ => .command 0x04000000 0xFFFFFF00 1
  | .pwl _ _ => .command 0x05000000 0xFFFFFF00 1
  | .percalc _ _ => .command 0x06000000 0xFFFFFFFF 2
  | .rssiT _ _ => .command 0x07000000 0xFFFFFFFF 2
  | .rssiS _ => .command 0x08000000 0xFFFFFFFF 1
  | .cnrT _ => .command 0x09000000 0xFFFFFFFF 1
  | .cnrS _ _ _ => .command 0x0A000000 0xFFFFFFF8 2
  | .setBits _ _ _ _ => .command 0x10000000 0xFFFFFFFE 1
  | .setBankedBits _ _ _ _ _ => .command 0x11000000 0xFFFFFFFE 1
  | .init => .command 0x20000000 0xFFFFFFFF 0
  | .sleep => .command 0x21000000 0xFFFFFFFF 0
  | .setFrontend _ _ _ _ => .command 0x22000000 0xFFFFF0F8 2
  | .readStatus => .command 0x23000000 0xFFFFFFFF 0
  | .getState => .command 0x24000000 0xFFFFFFFF 0
  | .endSeq => .romEntry 0x0000000000000000 0xFFFFFFFFFFFFFFFF
  | .wr _ _ => .romEntry 0x1000000000000000 0xFC00000000FFFFFF
  | .wrv _ _ => .romEntry 0x2000000000000000 0xFC0000FF00FFFF00
  | .delay _ => .romEntry 0x3000000000000000 0xFFFFFFFFFFFF0000
  | .pollz _ => .romEntry 0x4000000000000000 0xFC0000FF00FFFFFF
  | .rdsel _ => .romEntry 0x5000000000000000 0xFC0000FF00FFFFFF
  | .hook _ _ => .romEntry 0x6000000000000000 0xFFFFFF00FFFFFF00

namespace MatchesTable

/-- The words of the instruction have the fixed bits and the length of its row. -/
def Statement (i : Instr) : Prop :=
  match encode i, tableRow i with
  | .command w0 ops, .command pattern mask count => w0 &&& mask = pattern ∧ ops.length = count
  | .romEntry e, .romEntry pattern mask => e &&& mask = pattern
  | .command _ _, .romEntry _ _ => False
  | .romEntry _, .command _ _ _ => False

/-- A packed entry under a mask, field by field. -/
theorem romEntry_masked (f : EntryFields) (mask pattern : RomWord)
    (h : EntryFields.toWord {
      kind := f.kind &&& (EntryFields.ofWord mask).kind
      reservedHi := f.reservedHi &&& (EntryFields.ofWord mask).reservedHi
      b := f.b &&& (EntryFields.ofWord mask).b
      tgt := f.tgt &&& (EntryFields.ofWord mask).tgt
      bank := f.bank &&& (EntryFields.ofWord mask).bank
      reg := f.reg &&& (EntryFields.ofWord mask).reg
      val := f.val &&& (EntryFields.ofWord mask).val
      mask := f.mask &&& (EntryFields.ofWord mask).mask
      reservedLo := f.reservedLo &&& (EntryFields.ofWord mask).reservedLo
      arg := f.arg &&& (EntryFields.ofWord mask).arg } = pattern) : f.toWord &&& mask = pattern := by
  rw [← h, ← EntryFields.toWord_and, EntryFields.toWord_ofWord]

/-- ARG[15:8] of an argument that is one byte (R104). -/
theorem low_byte_masked : ∀ c : Byte, 0#8 ++ c &&& 0xFF00#16 = 0#16 := by decide

theorem log2 (x : Word) : Statement (.log2 x) :=
  ⟨by decide, rfl⟩

theorem log10 (x : Word) : Statement (.log10 x) :=
  ⟨by decide, rfl⟩

theorem sext (w : BitVec 6) (v : Word) : Statement (.sext w v) :=
  ⟨by revert w; decide, rfl⟩

theorem tlookup (id : Byte) (q : Word) : Statement (.tlookup id q) :=
  ⟨by revert id; decide, rfl⟩

theorem pwl (id : Byte) (v : Word) : Statement (.pwl id v) :=
  ⟨by revert id; decide, rfl⟩

theorem percalc (e w : Word) : Statement (.percalc e w) :=
  ⟨by decide, rfl⟩

theorem rssiT (agc f : Word) : Statement (.rssiT agc f) :=
  ⟨by decide, rfl⟩

theorem rssiS (agc : Word) : Statement (.rssiS agc) :=
  ⟨by decide, rfl⟩

theorem cnrT (snr : Word) : Statement (.cnrT snr) :=
  ⟨by decide, rfl⟩

theorem cnrS (sys : BitVec 3) (code symrate : Word) : Statement (.cnrS sys code symrate) :=
  ⟨by revert sys; decide, rfl⟩

theorem setBits (tgt : Target) (reg val mask : Byte) : Statement (.setBits tgt reg val mask) :=
  ⟨by cases tgt <;> decide, rfl⟩

theorem setBankedBits (tgt : Target) (bank reg val mask : Byte) : Statement (.setBankedBits tgt bank reg val mask) :=
  ⟨by cases tgt <;> decide, rfl⟩

theorem init : Statement (.init) :=
  ⟨by decide, rfl⟩

theorem sleep : Statement (.sleep) :=
  ⟨by decide, rfl⟩

theorem setFrontend (sys : BitVec 3) (bw : BitVec 4) (freq sid : Word) : Statement (.setFrontend sys bw freq sid) :=
  ⟨by revert sys bw; decide, rfl⟩

theorem readStatus : Statement (.readStatus) :=
  ⟨by decide, rfl⟩

theorem getState : Statement (.getState) :=
  ⟨by decide, rfl⟩

theorem endSeq : Statement (.endSeq) :=
  romEntry_masked _ _ _ (by simp [plainFields, EntryFields.ofWord]; decide)

theorem wr (a : Access) (val : Byte) : Statement (.wr a val) :=
  romEntry_masked _ _ _ (by simp [Access.fields, EntryFields.ofWord]; decide)

theorem wrv (a : Access) (src : Source) : Statement (.wrv a src) :=
  romEntry_masked _ _ _ (by simp [Access.fields, EntryFields.ofWord, low_byte_masked]; decide)

theorem delay (ms : BitVec 16) : Statement (.delay ms) :=
  romEntry_masked _ _ _ (by simp [plainFields, EntryFields.ofWord]; decide)

theorem pollz (a : Access) : Statement (.pollz a) :=
  romEntry_masked _ _ _ (by simp [Access.fields, EntryFields.ofWord]; decide)

theorem rdsel (a : Access) : Statement (.rdsel a) :=
  romEntry_masked _ _ _ (by simp [Access.fields, EntryFields.ofWord]; decide)

theorem hook (id val : Byte) : Statement (.hook id val) :=
  romEntry_masked _ _ _ (by simp [plainFields, EntryFields.ofWord, low_byte_masked]; decide)

end MatchesTable

end Sys2Proof.Laws
end

