-- ==== Sys2Proof/Laws/Step.lean ====
section
/-! SUPPORT. What executing an instruction, and a step, can do to the configuration, the port, the history, the lock, the
fault record and the end of the command, said once for all instructions. -/

namespace Sys2Proof.Machine

/-- From `s` to `t` no configuration, port, lock or fault record changed, and the history only grew. -/
structure Kept (s t : State) : Prop where
  cfg : t.cfg = s.cfg
  refused : t.refused = s.refused
  port : t.port = s.port
  lock : t.lock = s.lock
  faultReason : t.faultReason = s.faultReason
  history : ∃ es, t.history = s.history ++ es

theorem Kept.refl (s : State) : Kept s s := ⟨rfl, rfl, rfl, rfl, rfl, [], by simp⟩

theorem BusOnly.kept {s t : State} (h : BusOnly s t) : Kept s t :=
  ⟨h.cfg, h.refused, h.port, h.lock, h.faultReason, h.history⟩

/-- What an instruction that goes on leaves: the command runs on with the lock as it was, or it has responded and freed the
lock, or it has ended in a model fault and holds it (R348). -/
structure ExecFrame (s t : State) : Prop where
  cfg : t.cfg = s.cfg
  refused : t.refused = s.refused
  port : t.port = s.port
  history : ∃ es, t.history = s.history ++ es
  ends :
    (t.run.isSome = true ∧ t.lock = s.lock ∧ t.faultReason = s.faultReason) ∨
    (t.run = none ∧ t.lock = .free ∧ t.faultReason = s.faultReason ∧ t.resp.isSome = true) ∨
    (t.run = none ∧ t.lock = .held ∧ t.faultReason.isSome = true ∧ t.resp = none ∧ t.history = s.history)

variable {s t : State}

theorem Kept.running (h : Kept s t) (hr : t.run.isSome = true) : ExecFrame s t :=
  ⟨h.cfg, h.refused, h.port, h.history, .inl ⟨hr, h.lock, h.faultReason⟩⟩

theorem Kept.responds (h : Kept s t) (st : Status) (ws : List Word) : ExecFrame s (respond st ws t) :=
  ⟨h.cfg, h.refused, h.port, h.history, .inr (.inl ⟨rfl, rfl, h.faultReason, rfl⟩)⟩

theorem raiseFault_frame (s : State) (x : FaultReason) : ExecFrame s (raiseFault x s) :=
  ⟨rfl, rfl, rfl, ⟨[], by simp⟩, .inr (.inr ⟨rfl, rfl, rfl, rfl, rfl⟩)⟩

theorem finish_frame {c : Calc (List Word)} (h : finish c s = .next t) : ExecFrame s t := by
  rcases finish_cases c s with ⟨ws, -, e⟩ | ⟨x, -, e⟩ | ⟨d, -, e⟩ <;> rw [e] at h <;> cases h
  · exact (Kept.refl s).responds _ _
  · exact raiseFault_frame s x

theorem finishBits_frame {r : Res Unit} (h : BusOnly s r.state) : ExecFrame s (finishBits r) := by
  rcases finishBits_cases r with ⟨-, e⟩ | ⟨-, e⟩ <;> rw [e] <;> exact h.kept.responds _ _

/-- The fields that the control flow writes are none of those that are kept. -/
theorem Kept.fields {u : State} (h : Kept s t) (hc : u.cfg = t.cfg) (hr : u.refused = t.refused) (hp : u.port = t.port)
    (hl : u.lock = t.lock) (hf : u.faultReason = t.faultReason) (hh : u.history = t.history) : Kept s u :=
  ⟨hc.trans h.cfg, hr.trans h.refused, hp.trans h.port, hl.trans h.lock, hf.trans h.faultReason, by rw [hh]; exact h.history⟩

theorem Kept.trans {u : State} (h : Kept s t) (k : Kept t u) : Kept s u := by
  obtain ⟨es, e⟩ := h.history
  obtain ⟨fs, f⟩ := k.history
  exact ⟨k.cfg.trans h.cfg, k.refused.trans h.refused, k.port.trans h.port, k.lock.trans h.lock,
    k.faultReason.trans h.faultReason, es ++ fs, by rw [f, e, List.append_assoc]⟩

theorem sleepFields_kept (s : State) : Kept s (sleepFields s) := (Kept.refl s).fields rfl rfl rfl rfl rfl rfl

theorem latchTuned_kept (req : TuneReq) (s : State) : Kept s (latchTuned req s) :=
  (Kept.refl s).fields rfl rfl rfl rfl rfl rfl

theorem enterTuner_frame (r : Run) (req : TuneReq) (s : State) : ExecFrame s (enterTuner r req s) := by
  rcases enterTuner_cases r req s with ⟨t, h, e⟩ | ⟨t, h, -, ⟨-, e⟩ | ⟨-, e⟩⟩ <;> rw [e]
  · exact h.kept.responds _ _
  · exact Kept.running (h.kept.fields rfl rfl rfl rfl rfl rfl) rfl
  · exact Kept.running (h.kept.fields rfl rfl rfl rfl rfl rfl) rfl

theorem afterSequence_frame (r : Run) (s : State) : ExecFrame s (afterSequence r s) := by
  unfold afterSequence
  split
  · rcases enterColdboot_cases r s with ⟨t, h, e⟩ | ⟨t, h, -, e⟩ <;> rw [e]
    · exact h.kept.responds _ _
    · exact Kept.running (h.kept.fields rfl rfl rfl rfl rfl rfl) rfl
  · rcases finishInit_cases s with ⟨t, h, e⟩ | ⟨t, h, -, e⟩ <;> rw [e]
    · exact h.kept.responds _ _
    · exact (h.kept.trans (sleepFields_kept t)).responds _ _
  · exact (sleepFields_kept s).responds _ _
  · exact Kept.running ((Kept.refl s).fields rfl rfl rfl rfl rfl rfl) rfl
  · exact enterTuner_frame ..
  · exact enterTuner_frame ..
  · exact Kept.running ((Kept.refl s).fields rfl rfl rfl rfl rfl rfl) rfl
  · exact Kept.running ((Kept.refl s).fields rfl rfl rfl rfl rfl rfl) rfl
  · rename_i req _
    rcases finishTune_cases req s with ⟨t, h, e⟩ | ⟨t, h, -, e⟩ <;> rw [e]
    · exact h.kept.responds _ _
    · split
      · exact (h.kept.trans (latchTuned_kept req t)).responds _ _
      · exact ((h.kept.trans (latchTuned_kept req t)).fields (u := { latchTuned req t with ds := .active })
          rfl rfl rfl rfl rfl rfl).responds _ _

theorem advance_frame (h : BusOnly s t) (r : Run) : ExecFrame s (advance r t) :=
  Kept.running (h.kept.fields rfl rfl rfl rfl rfl rfl) rfl

theorem failSequence_frame (h : BusOnly s t) (st : Status) (r : Run) : ExecFrame s (failSequence st r t) := by
  obtain ⟨u, k, e⟩ := failSequence_cases st r t
  rw [e]
  exact (h.trans k).kept.responds _ _

theorem afterAccess_frame (r : Run) {res : Res Unit} (h : BusOnly s res.state) : ExecFrame s (afterAccess r res) := by
  cases res with
  | ok _ t => exact advance_frame h r
  | err t => exact failSequence_frame h _ r

theorem afterPoll_frame (m : Byte) (r : Run) {res : Res Byte} (h : BusOnly s res.state) :
    ExecFrame s (afterPoll m r res) := by
  cases res with
  | ok b t =>
    by_cases hb : b &&& m = 0
    · rw [afterPoll, if_pos hb]; exact advance_frame h r
    · rw [afterPoll, if_neg hb]; exact failSequence_frame h _ r
  | err t => exact failSequence_frame h _ r

theorem startRun_frame (p : Phase) (b : Option Bandwidth) (h : Kept s t) : ExecFrame s (startRun p b t) :=
  Kept.running (h.fields rfl rfl rfl rfl rfl rfl) rfl

/-- The frame of every instruction. -/
theorem exec_frame {i : Instr} (h : exec i s = .next t) : ExecFrame s t := by
  have seq : ∀ {f : Run → Host.Outcome State Fault Refusal}, (∀ r, f r = .next t → ExecFrame s t) →
      inSequence s f = .next t → ExecFrame s t := by
    intro f hf e
    unfold inSequence at e
    split at e
    · cases e
    · exact hf _ e
  cases i <;> simp only [exec] at h
  · cases h; exact (Kept.refl s).responds _ _
  · cases h; exact (Kept.refl s).responds _ _
  · cases h; exact (Kept.refl s).responds _ _
  · unfold execTlookup at h; split at h
    · cases h; exact (Kept.refl s).responds _ _
    · exact finish_frame h
  · unfold execPwl at h; split at h
    · cases h; exact (Kept.refl s).responds _ _
    · exact finish_frame h
  · exact finish_frame h
  · exact finish_frame h
  · exact finish_frame h
  · exact finish_frame h
  · unfold execCnrS at h; split at h
    · exact finish_frame h
    · exact finish_frame h
    · cases h; exact (Kept.refl s).responds _ _
  · cases h; exact finishBits_frame (onTarget_busOnly _ (fun _ => setBitsOp_busOnly ..) _)
  · cases h; exact finishBits_frame (onTarget_busOnly _ (fun _ => setBankedBitsOp_busOnly ..) _)
  · cases h; exact startRun_frame _ _ (.refl s)
  · unfold execSleep at h; split at h
    · split at h <;> cases h
      exact startRun_frame _ _ (.refl s)
    all_goals cases h; exact (sleepFields_kept s).responds _ _
  · unfold execSetFrontend at h; split at h
    · cases h; exact (Kept.refl s).responds _ _
    · split at h
      · unfold startTune at h; split at h
        · split at h
          · cases h
          · split at h <;> cases h <;> exact startRun_frame _ _ (.refl s)
        all_goals cases h; exact startRun_frame _ _ ((Kept.refl s).fields rfl rfl rfl rfl rfl rfl)
      · cases h; exact (Kept.refl s).responds _ _
  · unfold execReadStatus at h; split at h
    · split at h
      · cases h
      · rename_i sy _
        have k := statusWords_busOnly sy s
        split at h <;> rename_i ho <;> rw [ho] at k <;> cases h <;> exact k.kept.responds _ _
    all_goals cases h; exact (Kept.refl s).responds _ _
  · cases h; exact (Kept.refl s).responds _ _
  · exact seq (fun r e => by cases e; exact afterSequence_frame r s) h
  · exact seq (fun r e => by cases e; exact afterAccess_frame r (accessOp_busOnly ..)) h
  · refine seq (fun r e => ?_) h
    split at e <;> cases e
    · exact raiseFault_frame s _
    · exact afterAccess_frame r (accessOp_busOnly ..)
  · exact seq (fun r e => by cases e; exact advance_frame (State.record_busOnly ..) r) h
  · exact seq (fun r e => by cases e; exact afterPoll_frame _ r (readEntry_busOnly ..)) h
  · rename_i a
    refine seq (fun r e => ?_) h
    have k := readEntry_busOnly a s
    split at e
    · cases e
    · split at e <;> rename_i ho <;> rw [ho] at k
      · cases e; exact failSequence_frame k _ r
      · split at e <;> cases e
        exact advance_frame k _
  · exact seq (fun r e => by cases e; exact advance_frame (State.record_busOnly ..) r) h

/-- What a step that goes on has done: it waited, it answered a command that does not decode, or it executed the instruction
it found, a command from the port or an entry of the running sequence. -/
theorem step_cases (h : step s = .next t) :
    s.faultReason = none ∧ s.refused = false ∧
    ((∃ r e i, s.run = some r ∧ (s.cfg.seqRom.entries (r.phase.sequence s.cfg))[r.index]? = some e ∧
        decodeEntry e = .ok i ∧ exec i s = .next t) ∨
     (s.run = none ∧ t = s ∧ (s.lock = .other ∨ s.port = [])) ∨
     (∃ c rest, s.run = none ∧ s.lock ≠ .other ∧ s.port = c :: rest ∧
        ((∃ x, decodeCommand c.w0 c.ops = .error x ∧ t = raiseIllegal (takeCommand rest s)) ∨
         (∃ i, decodeCommand c.w0 c.ops = .ok i ∧ exec i (takeCommand rest s) = .next t)))) := by
  unfold step at h
  split at h
  · cases h
  · next hf =>
    split at h
    · cases h
    · next hn =>
      refine ⟨hf, hn, ?_⟩
      cases hr : s.run with
      | some r =>
        rw [show fetch s = fetchEntry r s by simp only [fetch, hr]] at h
        unfold fetchEntry at h
        cases he : (s.cfg.seqRom.entries (r.phase.sequence s.cfg))[r.index]? with
        | none => simp [he] at h
        | some e =>
          cases hd : decodeEntry e with
          | error x => simp [he, hd] at h
          | ok i => simp only [he, hd] at h; exact .inl ⟨r, e, i, rfl, he, hd, h⟩
      | none =>
        right
        by_cases hl : s.lock = .other
        · simp only [fetch, hr, hl, Host.Outcome.next.injEq] at h
          exact .inl ⟨rfl, h.symm, .inl hl⟩
        · rw [show fetch s = fetchCommand s by simp only [fetch, hr]; cases hk : s.lock <;> simp_all] at h
          unfold fetchCommand at h
          cases hp : s.port with
          | nil => simp only [hp, Host.Outcome.next.injEq] at h; exact .inl ⟨rfl, h.symm, .inr rfl⟩
          | cons c rest =>
            refine .inr ⟨c, rest, rfl, hl, rfl, ?_⟩
            cases hd : decodeCommand c.w0 c.ops with
            | error x => simp only [hp, hd, Host.Outcome.next.injEq] at h; exact .inl ⟨x, rfl, h.symm⟩
            | ok i => simp only [hp, hd] at h; exact .inr ⟨i, rfl, h⟩

end Sys2Proof.Machine
end

