-- ==== Sys2Proof/Tests/Slice0.lean ====
section
/-! SUPPORT. The model's own tests. Expected values come from spec/95_test_vectors.md (vector ids in the comments) and from
the encodings of spec/30_encoding.md; the configuration is its EX1. First the decoder on words written out from the spec,
then the well-formedness smoke, then one-step tests, then for each obligation with hypotheses a state that meets them. -/

namespace Sys2Proof.Tests

open Sys2Proof.Machine Sys2Proof.Claims

/-! ### Helpers -/

/-- A banked demodulator field of EX1. -/
def field (bank reg : Byte) (len : Nat) (shift : BitVec 5) (mask : Word) : RegField :=
  { tgt := .demod, bank := some bank, reg := reg, len := len, shift := shift, mask := mask }

/-- SEQ_ROM of EX1. -/
def ex1Rom : SeqRom where
  demodInit := [0x10000100FF000000, 0]
  tunerColdboot := [0x11000101FF000000, 0x3000000000000014, 0x41000200FF000000, 0]
  s2aT := [0x6000000100000002, 0x1210A501FF000000, 0x2210B000FF000010, 0x5000200006000000, 0x20002100FF000030,
    0x1000220101000000, 0]
  s2aS := [0x1220A502FF000000, 0x5000200006000000, 0x20002100FF000030, 0]
  s2aS3 := [0x1230A503FF000000, 0x5000200006000000, 0x20002100FF000030, 0]
  sameT := [0x2210B000FF000010, 0]
  sameS := [0x12202201FF000000, 0]
  sameS3 := [0x12302201FF000000, 0]
  a2sT := [0x1210A500FF000000, 0]
  a2sS := [0x1220A500FF000000, 0]
  a2sS3 := [0x1230A500FF000000, 0]
  tunerReset := [0x11000380FF000000, 0]
  tunerLoadTerr := [0x1100040103000000, 0]
  tunerLoadSat := [0x1100040203000000, 0]
  tunerFreqTerr := [0x21001000FF000001, 0x21001100FF000000, 0x210012000F000002, 0x21001300FF000020, 0]
  tunerFreqSatLo := [0x21001800FF000002, 0x21001900FF000001, 0x21001A00FF000000, 0]
  tunerFreqSatHi := [0x21001C00FF000002, 0x21001D00FF000001, 0x21001E00FF000000, 0]

/-- EX1 (95_test_vectors section 2). -/
def ex1 : Config where
  bankSelectReg := 0x00
  s3HighPathThresholdKhz := 2150000
  tFreqBits := 20
  demodAddr := 0x64
  tunerAddr := 0x60
  mbOrder := .be
  log2FracTable := defaultLog2FracTable
  cnrTables := [
    [⟨1000, 0⟩, ⟨800, 100⟩, ⟨600, 200⟩, ⟨400, 300⟩],
    [⟨2000, 0⟩, ⟨1500, 500⟩, ⟨1000, 1000⟩]]
  pwlModels := [[⟨0, 100, 3, 2, 500⟩, ⟨100, 400, -1, 4, 350⟩, ⟨400, 1000, 0, 1, 425⟩]]
  rssiTScale := 1
  rssiTCal := -100
  rssiTRanges := [⟨0, 1000000, 0⟩]
  rssiSDiv := 16
  rssiSOffset := 0
  cnrTMul := 10
  cnrTOff := -500
  cnrRelLo := 0
  cnrRelHi := 3000
  cnrSelectS := defaultCnrSelectS
  cnrSelectS3 := defaultCnrSelectS3
  symrateField := none
  lockCond := {
    isdbT := [(field 0x40 0x80 1 0 1, 0), (field 0x40 0x80 1 1 3, 3)]
    isdbS := [(field 0x50 0x80 1 0 1, 1)]
    isdbS3 := [(field 0x60 0x80 1 0 1, 1)] }
  agcField := {
    isdbT := field 0x40 0x82 2 0 0xFFF
    isdbS := field 0x50 0x82 2 0 0xFFFF
    isdbS3 := field 0x60 0x82 2 0 0xFFFF }
  snrFieldT := field 0x40 0x84 2 0 0xFFFF
  cnrFieldS := field 0x50 0x84 2 0 0xFFFF
  cnrFieldS3 := field 0x60 0x84 2 0 0xFFFF
  errcntField := field 0x40 0x86 3 0 0xFFFFFF
  wincntField := field 0x40 0x89 2 0 0xFFFF
  seqRom := ex1Rom
  bandpTable := {
    mhz6 := .ofFn fun k => 0x60 ||| BitVec.ofNat 8 k.val
    mhz7 := .ofFn fun k => 0x70 ||| BitVec.ofNat 8 k.val
    mhz8 := .ofFn fun k => 0x80 ||| BitVec.ofNat 8 k.val }
  tunerbwTable := { mhz6 := .replicate 16 6, mhz7 := .replicate 16 7, mhz8 := .replicate 16 8 }
  tsclkTable := [⟨0, 0, 0, 0⟩, ⟨1, 0, 4, 1⟩, ⟨0, 1, 8, 0⟩, ⟨1, 1, 2, 1⟩]
  s3StreamIdA := 0x4010
  s3StreamIdB := 0x4011
  hookIds := [(2, "TS output switch")]

/-- The environment answers `ok`; a read's first byte is `b`. -/
def okByte (b : Byte) : Answer := .ok b 0 0 0

/-- A block of EX1 right after attach (`test_base`). -/
def base : State := State.fresh ex1 false

/-- The same with these answers to come. -/
def withEnv (env : List Answer) (s : State) : State := { s with env := env }

/-- The same with these commands on the port. -/
def withPort (cs : List Command) (s : State) : State := { s with port := cs }

/-- A block in the middle of a command: at entry `n` of the phase's sequence. -/
def running (p : Phase) (n : Nat) (bw : Option Bandwidth) (s : State) : State :=
  { s with run := some { phase := p, index := n, freqw := none, bwsel := bw, tstuple := none }, lock := .held }

/-- Active in a system, tuned (STATE words 0x00062112, 0x00002222, 0x00002232). -/
def active (sy : System) : State :=
  { base with
    ds := .active, sys := systemValue sy, sub := subModeOf sy, tunedFreq := 509142, tunedValid := true
    tunedBw := (match sy with | .isdbT => 6 | .isdbS => 0 | .isdbS3 => 0) }

/-- Asleep after INIT (STATE word 0x00000001). -/
def asleep : State := { base with ds := .sleep }

/-- What a test looks at. -/
def stateOf {φ ρ : Type} : Host.Outcome State φ ρ → Option State
  | .next s => some s
  | .fault _ => none
  | .refused _ => none

/-- The response of the next state. -/
def respOf {φ ρ : Type} (o : Host.Outcome State φ ρ) : Option Response := (stateOf o).bind State.resp

/-- The events of the next state, the history starting empty. -/
def eventsOf {φ ρ : Type} (o : Host.Outcome State φ ρ) : Option (List Event) := (stateOf o).map State.history

/-- The recorded fault of the next state. -/
def faultOf {φ ρ : Type} (o : Host.Outcome State φ ρ) : Option FaultReason := (stateOf o).bind State.faultReason

/-- The phase and entry index of the next state. -/
def placeOf {φ ρ : Type} (o : Host.Outcome State φ ρ) : Option (Phase × Nat) :=
  ((stateOf o).bind State.run).map fun r => (r.phase, r.index)

/-- An OK response. -/
def ok (ws : List Word) : Option Response := some { status := .ok, results := ws }

/-- A terrestrial request of the tests. -/
def reqT (same : Bool) : TuneReq := { target := .isdbT, bw := 6, freq := 509142, same := same }

/-! ### The decoder on words written out from the spec (30_encoding R100, R109; 95 section 8) -/

/-- The 17 commands of 95 section 8. -/
theorem test_decode_commands :
    decodeCommand 0x01000000 [0x3E8] = .ok (.log2 1000) ∧
    decodeCommand 0x02000000 [0x3E8] = .ok (.log10 1000) ∧
    decodeCommand 0x0300000C [0x800] = .ok (.sext 12 0x800) ∧
    decodeCommand 0x04000000 [0x2BC] = .ok (.tlookup 0 700) ∧
    decodeCommand 0x05000000 [0x18F] = .ok (.pwl 0 399) ∧
    decodeCommand 0x06000000 [2, 3] = .ok (.percalc 2 3) ∧
    decodeCommand 0x07000000 [3, 0x7C4D6] = .ok (.rssiT 3 509142) ∧
    decodeCommand 0x08000000 [0x1F48] = .ok (.rssiS 8008) ∧
    decodeCommand 0x09000000 [0x3E8] = .ok (.cnrT 1000) ∧
    decodeCommand 0x0A000003 [0x4B0, 0] = .ok (.cnrS 3 1200 0) ∧
    decodeCommand 0x10000001 [0x00040103] = .ok (.setBits .tuner 0x04 0x01 0x03) ∧
    decodeCommand 0x11000000 [0x10A501FF] = .ok (.setBankedBits .demod 0x10 0xA5 0x01 0xFF) ∧
    decodeCommand 0x20000000 [] = .ok .init ∧
    decodeCommand 0x21000000 [] = .ok .sleep ∧
    decodeCommand 0x22000002 [0x21EF80, 0x4010] = .ok (.setFrontend 2 0 2224000 0x4010) ∧
    decodeCommand 0x23000000 [] = .ok .readStatus ∧
    decodeCommand 0x24000000 [] = .ok .getState := by decide

/-- The seven entry kinds: V-SQ1, 4, 5, 7, 8, 10, 12. -/
theorem test_decode_entries :
    decodeEntry 0x0000000000000000 = .ok .endSeq ∧
    decodeEntry 0x1210A501FF000000 = .ok (.wr ⟨some 0x10, .demod, 0xA5, 0xFF⟩ 0x01) ∧
    decodeEntry 0x210012000F000002 = .ok (.wrv ⟨none, .tuner, 0x12, 0x0F⟩ .freqw2) ∧
    decodeEntry 0x3000000000000014 = .ok (.delay 20) ∧
    decodeEntry 0x41000200FF000000 = .ok (.pollz ⟨none, .tuner, 0x02, 0xFF⟩) ∧
    decodeEntry 0x5000200006000000 = .ok (.rdsel ⟨none, .demod, 0x20, 0x06⟩) ∧
    decodeEntry 0x6000000100000002 = .ok (.hook 2 1) := by decide

/-- The illegal forms of 95 section 8 that fail to decode, with V-BF11 and V-BF12. -/
theorem test_decode_refuses :
    decodeCommand 0x00000000 [] = .error .unassignedOpcode ∧
    decodeCommand 0x0B000000 [0] = .error .unassignedOpcode ∧
    decodeCommand 0x25000000 [] = .error .unassignedOpcode ∧
    decodeCommand 0x01000001 [8] = .error .reservedField ∧
    decodeCommand 0x01000000 [8, 8] = .error .operandCount ∧
    decodeCommand 0x03000040 [5] = .error .reservedField ∧
    decodeCommand 0x10000000 [0x0145050F] = .error .setBitsBank ∧
    decodeCommand 0x10000002 [0x0045050F] = .error .reservedField ∧
    decodeCommand 0x22000008 [1, 0] = .error .reservedField ∧
    decodeCommand 0x22001601 [1, 0] = .error .reservedField := by decide

/-- V-SQ14, V-SQ15, and one entry for each further check of R103 to R105. -/
theorem test_decode_refuses_entries :
    decodeEntry 0x7000000000000000 = .error .reservedKind ∧
    decodeEntry 0x14000100FF000000 = .error .reservedEntryField ∧
    decodeEntry 0x10010100FF000000 = .error .unusedEntryField ∧
    decodeEntry 0x3000000100000014 = .error .unusedEntryField ∧
    decodeEntry 0x20002100FF000034 = .error .unknownSource := by decide

/-- The opcode table's numbering: operand words above the row's bits are 0. -/
theorem test_decodeTableWord :
    decodeTableWord 32 0x22000601 = some (.setFrontend 1 6 0 0) ∧
    decodeTableWord 64 0x3000000000000014 = some (.delay 20) ∧ decodeTableWord 32 0x25000000 = none := by decide

/-! ### Well-formedness, check by check -/

/-- EX1 passes every check (95 section 2). -/
theorem test_ex1_wellformed : configWf ex1 = true := by decide +kernel

theorem test_base : base = State.attach ex1 := by simp [base, State.attach, test_ex1_wellformed]

/-- R6, I44: BANK_SELECT_REG, S3_HIGH_PATH_THRESHOLD_KHZ and T_FREQ_BITS are arguments, here with other values. -/
theorem test_other_parameters :
    eventsOf (exec (.setBankedBits .demod 0x10 0xA5 1 0xFF)
      { base with cfg := { ex1 with bankSelectReg := 0xFE }, env := [okByte 0, okByte 0] }) =
      some [.busWrite 0x64 0xFE [0x10] true, .busWrite 0x64 0xA5 [1] true] ∧
    freqSequence { ex1 with s3HighPathThresholdKhz := 2000000 } .isdbS3 2000001 = .tunerFreqSatHi ∧
    freqSequence ex1 .isdbS3 2150000 = .tunerFreqSatLo ∧
    requestFits { ex1 with tFreqBits := 18 } .isdbT 6 509142 = false := by decide

/-- R101 items 5 to 7, R201 item 5: an instruction each check refuses. -/
theorem test_wf_instr :
    (Instr.cnrS 1 0 0).wf = false ∧ (Instr.cnrS 4 0 0).wf = false ∧
    (Instr.rdsel ⟨none, .demod, 0x20, 0⟩).wf = false ∧
    (Instr.tlookup 2 0).wfIn ex1 = false ∧ (Instr.tlookup 1 0).wfIn ex1 = true ∧
    (Instr.pwl 1 0).wfIn ex1 = false ∧ (Instr.pwl 0 0).wfIn ex1 = true := by decide

/-- R201 items 6 and 7. -/
theorem test_wf_allowed :
    (Instr.pollz ⟨none, .demod, 2, 0xFF⟩).allowedIn .demodInit = false ∧
    (Instr.pollz ⟨none, .tuner, 2, 0xFF⟩).allowedIn .tunerColdboot = true ∧
    (Instr.rdsel ⟨none, .demod, 0x20, 6⟩).allowedIn .a2sT = false ∧
    (Instr.wr ⟨none, .tuner, 1, 0xFF⟩ 0).allowedIn .demodInit = false ∧
    (Instr.wrv ⟨none, .demod, 1, 0xFF⟩ .freqw0).allowedIn .tunerFreqTerr = false ∧
    Instr.init.allowedIn .demodInit = false := by decide

/-- R166, R171, R295, R67, R294, R300: a table, model, range or field each check refuses. -/
theorem test_wf_tables :
    cnrTableWf [] = false ∧ cnrTableWf [⟨5, 0⟩, ⟨5, 1⟩] = false ∧
    pwlModelWf [] = false ∧ pwlModelWf [⟨5, 5, 1, 1, 0⟩] = false ∧ pwlModelWf [⟨0, 5, 1, 0, 0⟩] = false ∧
    RssiRange.wf 1 ⟨5, 5, 0⟩ = false ∧ RssiRange.wf 1 ⟨0, 5, 1⟩ = false ∧
    (field 0 0 0 0 0).wf = false ∧ (field 0 0 5 0 0).wf = false ∧ (field 0 0xFE 3 0 0).wf = false ∧
    (field 0 0xFE 2 0 0).wf = true ∧ { field 0 0 1 0 0 with tgt := .tuner }.statusWf = false ∧
    CnrSelect.wf 2 { base := 2, thresholds := [] } = false ∧
    CnrSelect.wf 2 { base := 0, thresholds := [(1, 2)] } = false ∧
    CnrSelect.wf 2 { base := 2, thresholds := [(0, 1)] } = true := by decide

/-- EX1 with one parameter spoiled, for each check of `Config.tablesWf`. -/
theorem test_wf_config :
    { ex1 with log2FracTable := .replicate 32 1 }.tablesWf = false ∧
    { ex1 with cnrTables := [[⟨1, 0⟩]] }.tablesWf = false ∧
    { ex1 with cnrTables := [[], []] }.tablesWf = false ∧
    { ex1 with pwlModels := [[]] }.tablesWf = false ∧
    { ex1 with rssiTRanges := [] }.tablesWf = false ∧
    { ex1 with rssiTRanges := [⟨0, 1, 1⟩] }.tablesWf = false ∧
    { ex1 with rssiSDiv := 0 }.tablesWf = false ∧
    { ex1 with cnrRelHi := 0 }.tablesWf = false ∧
    { ex1 with cnrSelectS := { base := 2, thresholds := [] } }.tablesWf = false ∧
    { ex1 with cnrSelectS3 := { base := 2, thresholds := [] } }.tablesWf = false ∧
    { ex1 with symrateField := some (field 0 0xFF 2 0 0) }.tablesWf = false := by decide +kernel

/-- R201 items 1, 2 and 8, sequence by sequence, and the refusal of attach (R338). -/
theorem test_wf_sequence :
    sequenceWf ex1 .demodInit [] = false ∧ sequenceWf ex1 .demodInit [0x10000100FF000000] = false ∧
    sequenceWf ex1 .demodInit [0, 0] = false ∧ sequenceWf ex1 .demodInit [0x7000000000000000, 0] = false ∧
    sequenceWf ex1 .s2aT [0x500020000E000000, 0] = false ∧ sequenceWf ex1 .s2aT [0x5000200006000000, 0] = true := by
  decide

/-- EX1 with RSSI_S_DIV = 0 (R296). -/
def badDivisor : Config := { ex1 with rssiSDiv := 0 }

/-- R338: attach refuses an ill-formed configuration. -/
theorem test_attach_refuses : configWf badDivisor = false ∧
    attach badDivisor = .refused (.illFormedConfig .refusedAtAttach) := by
  have h : configWf badDivisor = false := by decide +kernel
  exact ⟨h, by simp [attach, h]⟩

/-- R338: and it has no run. -/
theorem test_refused_has_no_run : step (State.attach badDivisor) = .refused (.illFormedConfig .refusedAtAttach) := by
  simp [step, State.attach, State.fresh, test_attach_refuses.1]

/-! ### One step of each instruction -/

/-- 3.1: LOG2 3 = 158. -/
theorem test_log2 : respOf (exec (.log2 3) base) = ok [158] := by decide

/-- 3.1: LOG2 0xFFFFFFFF = 3198. -/
theorem test_log2_top : respOf (exec (.log2 0xFFFFFFFF) base) = ok [3198] := by decide

/-- R155: LOG10 10 = 100. -/
theorem test_log10 : respOf (exec (.log10 10) base) = ok [100] := by decide

/-- R155: LOG10 100000 = 499. -/
theorem test_log10_low : respOf (exec (.log10 100000) base) = ok [499] := by decide

/-- R160: SEXT(0x800, 12). -/
theorem test_sext : respOf (exec (.sext 12 0x800) base) = ok [0xFFFFF800] := by decide

/-- R160: SEXT(0x1234, 12) clears the bits above. -/
theorem test_sext_clear : respOf (exec (.sext 12 0x1234) base) = ok [0x234] := by decide

/-- R165: q = 799 gives 100, the strict comparison. -/
theorem test_tlookup : respOf (exec (.tlookup 0 799) base) = ok [100] := by decide

/-- R101 item 5: ID 2 of two tables. -/
theorem test_tlookup_illegal :
    respOf (exec (.tlookup 2 0) base) = some { status := .illegalCommand, results := [] } := by decide

/-- R170: v = 399 gives 424, truncation toward zero. -/
theorem test_pwl : respOf (exec (.pwl 0 399) base) = ok [424] := by decide

/-- R170: v = 1000 faults. -/
theorem test_pwl_fault : faultOf (exec (.pwl 0 1000) base) = some .pwlNoSegment := by decide

/-- R175: PER(2, 3) = 666667. -/
theorem test_percalc : respOf (exec (.percalc 2 3) base) = ok [666667] := by decide

/-- R175: an exact half rounds up. -/
theorem test_percalc_half : respOf (exec (.percalc 1 2000000) base) = ok [1] := by decide

/-- 4.1: agc 3 at 509142 kHz. -/
theorem test_rssiT : respOf (exec (.rssiT 3 509142) base) = ok [396] := by decide

/-- 4.1: fHi is exclusive. -/
theorem test_rssiT_fault : faultOf (exec (.rssiT 3 1000000) base) = some .rssiFreqNoRange := by decide

/-- R296: agc = 8008 gives −501. -/
theorem test_rssiS : respOf (exec (.rssiS 8008) base) = ok [-501] := by decide

/-- R297: snr = 1000 gives 2500 and 83. -/
theorem test_cnrT : respOf (exec (.cnrT 1000) base) = ok [2500, 83] := by decide

/-- R299: CNR_S S, 700, 0 gives 100. -/
theorem test_cnrS : respOf (exec (.cnrS 2 700 0) base) = ok [100] := by decide

/-- R101 item 7: SYS 1. -/
theorem test_cnrS_illegal :
    respOf (exec (.cnrS 1 0 0) base) = some { status := .illegalCommand, results := [] } := by decide

/-- V-BF1: the merge. -/
theorem test_setBits : eventsOf (exec (.setBits .demod 0x45 0x05 0x0F) (withEnv [okByte 0xF0, okByte 0] base)) =
    some [.busRead 0x64 0x45 1 (some [0xF0]), .busWrite 0x64 0x45 [0xF5] true] := by decide

/-- V-BF9: the repeater-off call fails. -/
theorem test_setBits_repeater :
    (stateOf (exec (.setBits .tuner 0x45 0x05 0xFF) (withEnv [okByte 0, okByte 0, .err] base))).map
      (fun s => (s.rep, s.resp)) = some (true, some { status := .busError, results := [] }) := by decide

/-- V-BF7: the tuner's banked merge inside the bracket. -/
theorem test_setBankedBits :
    eventsOf (exec (.setBankedBits .tuner 0x02 0x33 0xA0 0xF0)
      (withEnv [okByte 0, okByte 0, okByte 0x5A, okByte 0, okByte 0] base)) =
    some [.setRepeater true true, .busWrite 0x60 0x00 [0x02] true, .busRead 0x60 0x33 1 (some [0x5A]),
      .busWrite 0x60 0x33 [0xAA] true, .setRepeater false true] := by decide

/-- R250: INIT enters sequence 0. -/
theorem test_init : placeOf (exec .init base) = some (.initDemod, 0) := by decide

/-- V-SM1, last step: the END of sequence 1 leaves STATE 0x00000001. -/
theorem test_init_end :
    (stateOf (exec .endSeq { running .initTuner 3 none (withEnv [okByte 0] base) with rep := true })).map
      (fun s => (stateWord s, s.resp)) = some (0x00000001, ok []) := by decide

/-- V-SM4: SLEEP from Unknown. -/
theorem test_sleep : (stateOf (exec .sleep base)).map (fun s => (stateWord s, s.history)) = some (0x00000001, []) := by
  decide

/-- V-SM6: SLEEP from Active/IsdbT ends at STATE 0x00060001. -/
theorem test_sleep_end :
    (stateOf (exec .endSeq (running (.sleep .isdbT) 1 none (active .isdbT)))).map stateWord = some 0x00060001 := by
  decide

/-- V-SM14: IsdbT ignores SID; the tune starts with SEQ_S2A_T. -/
theorem test_setFrontend :
    placeOf (exec (.setFrontend 1 7 100000 0x4010) asleep) =
      some (.tuneS2A { target := .isdbT, bw := 7, freq := 100000, same := false }, 0) := by decide

/-- V-SM23: the SID redirects IsdbS to IsdbS3. -/
theorem test_setFrontend_redirect :
    placeOf (exec (.setFrontend 2 0 1318000 0x4011) asleep) =
      some (.tuneS2A { target := .isdbS3, bw := 0, freq := 1318000, same := false }, 0) := by decide

/-- V-RS1. -/
theorem test_readStatus :
    respOf (exec .readStatus (withEnv [okByte 0, okByte 6, okByte 0, okByte 6, okByte 0, .ok 0 3 0 0, okByte 0,
      .ok 3 0xE8 0 0, okByte 0, .ok 0 0 0xA 0, okByte 0, .ok 3 0xE8 0 0] (active .isdbT))) =
    ok [0xF1F, 0x18C, 0x9C4, 0x53, 0x2710] := by decide

/-- V-RS7: the read of 0x82 fails. -/
theorem test_readStatus_fails :
    respOf (exec .readStatus (withEnv [okByte 0, okByte 6, okByte 0, okByte 6, okByte 0, .err] (active .isdbT))) =
    some { status := .hardwareIoError, results := [0, 0, 0, 0, 0] } := by decide

/-- STATE 0x00062112 and its frequency. -/
theorem test_getState : respOf (exec .getState (active .isdbT)) = ok [0x00062112, 509142] := by decide

/-- V-SQ4. -/
theorem test_wr :
    eventsOf (exec (.wr ⟨some 0x10, .demod, 0xA5, 0xFF⟩ 1) (running .initDemod 0 none (withEnv [okByte 0, okByte 0] base))) =
    some [.busWrite 0x64 0 [0x10] true, .busWrite 0x64 0xA5 [1] true] := by decide

/-- V-SQ13 (a bracketed failure is followed by the repeater-off call: R340). -/
theorem test_wr_fails :
    (stateOf (exec (.wr ⟨none, .tuner, 1, 0xFF⟩ 1) { running .initTuner 0 none (withEnv [.err, okByte 0] base) with
      rep := true })).map (fun s => (s.history, s.resp)) =
    some ([.busWrite 0x60 1 [1] false, .setRepeater false true], some { status := .hardwareIoError, results := [] }) := by
  decide

/-- The run of V-SQ5: FREQW = 0x07C4D6. -/
def freqRun : Run := { phase := .tuneFreq (reqT false), index := 2, freqw := some 0x07C4D6, bwsel := none, tstuple := none }

/-- V-SQ5. -/
theorem test_wrv :
    eventsOf (exec (.wrv ⟨none, .tuner, 0x12, 0x0F⟩ .freqw2)
      { withEnv [okByte 0xF0, okByte 0] base with run := some freqRun }) =
    some [.busRead 0x60 0x12 1 (some [0xF0]), .busWrite 0x60 0x12 [0xF7] true] := by decide

/-- V-SQ6. -/
theorem test_wrv_unset :
    faultOf (exec (.wrv ⟨none, .tuner, 0x10, 0xFF⟩ .freqw0) (running .initTuner 0 none base)) = some .wrvSourceUnset := by
  decide

/-- V-SQ7. -/
theorem test_delay : eventsOf (exec (.delay 20) (running .initTuner 1 none base)) = some [.delay 20] := by decide

/-- V-SQ8. -/
theorem test_pollz :
    placeOf (exec (.pollz ⟨none, .tuner, 2, 0xFF⟩) (running .initTuner 2 none (withEnv [okByte 0] base))) =
    some (.initTuner, 3) := by decide

/-- V-SQ9, V-SM2. -/
theorem test_pollz_fails :
    respOf (exec (.pollz ⟨none, .tuner, 2, 0xFF⟩) (running .initTuner 2 none (withEnv [okByte 1, okByte 0] base))) =
    some { status := .tunerInitError, results := [] } := by decide

/-- V-SQ10. -/
theorem test_rdsel :
    ((stateOf (exec (.rdsel ⟨none, .demod, 0x20, 6⟩) (running (.tuneS2A (reqT false)) 3 none (withEnv [okByte 4] base)))).bind
      State.run).bind Run.tstuple = some ⟨0, 1, 8, 0⟩ := by decide

/-- V-SQ12. -/
theorem test_hook : eventsOf (exec (.hook 2 1) (running (.tuneS2A (reqT false)) 0 none base)) = some [.hook 2 1] := by
  decide

/-- The first instruction after reset is the one placed there: a ROM entry and a command. -/
theorem test_withFetchWord :
    eventsOf (step (State.reset.withFetchWord 64 0x6000000100000002)) = some [.hook 2 1] ∧
    respOf (step (State.reset.withFetchWord 32 0x24000000)) = ok [0, 0] := ⟨rfl, rfl⟩

/-! ### Hypotheses that are met

For every obligation with hypotheses, a state and operands that meet them; where it has several clauses, one for each, at
the boundary of its range. -/

/-- The first `n` of a list of answers are `ok`. -/
theorem allOk_of (s : State) (n : Nat) (h : (List.range n).all fun k => (s.env[k]?).any Answer.isOk) : AllOk s n := by
  intro k hk
  have := List.all_eq_true.mp h k (List.mem_range.mpr hk)
  exact (Option.any_eq_true _ _).mp this

/-- Several `ok` answers. -/
def oks (n : Nat) : List Answer := List.replicate n (okByte 0)

theorem witness_EncodeUndoesDecode :
    decode (.romEntry 0x3000000000000014) = .ok (.delay 20) ∧
    decode (.command 0x0300003F [0xFFFFFFFF]) = .ok (.sext 63 0xFFFFFFFF) := by decide

/-- One command for each cause of R101, each the nearest to a legal one. -/
theorem witness_IllegalCommandsAndNoOthers :
    Ready (withPort [⟨0x25000000, []⟩] base) ∧ IllegalCommand ex1 0x25000000 [] ∧
    IllegalCommand ex1 0x01000001 [8] ∧ IllegalCommand ex1 0x01000000 [8, 8] ∧
    IllegalCommand ex1 0x10000000 [0x01000000] ∧ IllegalCommand ex1 0x04000002 [0] ∧
    IllegalCommand ex1 0x05000001 [0] ∧ IllegalCommand ex1 0x0A000004 [0, 0] ∧
    (∃ t, step (withPort [⟨0x25000000, []⟩] base) = .next t ∧
      t.resp = some { status := .illegalCommand, results := [] }) := by
  refine ⟨⟨rfl, rfl, by decide⟩, ?_, ?_, ?_, ?_, ?_, ?_, ?_, _, rfl, rfl⟩ <;> simp [IllegalCommand, formatOf, ex1]

theorem witness_StepRunsTheDecodedInstruction :
    (Ready (withPort [⟨0x24000000, []⟩] base) ∧ decodeCommand 0x24000000 [] = .ok .getState) ∧
    ((running .initDemod 1 none base).faultReason = none ∧
      ((running .initDemod 1 none base).cfg.seqRom.entries (Phase.initDemod.sequence ex1))[1]? = some 0 ∧
      decodeEntry 0 = .ok .endSeq) :=
  ⟨⟨⟨rfl, rfl, rfl, by decide⟩, by decide⟩, rfl, rfl, by decide⟩

theorem witness_ModelFaultSticks :
    ∃ t, base.faultReason = none ∧ exec (.percalc 7 0) base = .next t ∧ t.faultReason = some .perDivZero :=
  ⟨_, rfl, rfl, by decide⟩

/-- Each reason is reached. -/
theorem witness_FaultReasonsByInstruction :
    faultOf (exec (.pwl 0 1000) base) = some .pwlNoSegment ∧
    faultOf (exec (.rssiT 1000 1) base) = some .pwlNoSegment ∧
    faultOf (exec (.rssiT 0x80000000 5) base) = some .resultRange ∧
    faultOf (exec (.percalc 7 0) base) = some .perDivZero ∧
    faultOf (exec (.percalc 4294968 1) base) = some .perOverflow ∧
    faultOf (exec (.rssiT 3 1000000) base) = some .rssiFreqNoRange ∧
    faultOf (exec (.wrv ⟨none, .tuner, 0x10, 0xFF⟩ (.bandp 15)) (running .initTuner 0 none base)) =
      some .wrvSourceUnset := by decide

theorem witness_SeqRomWellFormedExactly :
    seqRomWf ex1 = true ∧ seqRomWf { ex1 with seqRom := { ex1Rom with sameT := [] } } = false := by decide +kernel

theorem witness_Log2OfPowersOfTwo : base.cfg.log2FracTable[0] = 0 ∧ (31 : Nat) ≤ 31 := by decide

/-- Of `Log2NonDecreasing` and `Log10NonDecreasing`. -/
theorem witness_LogNonDecreasing :
    base.cfg.log2FracTable = defaultLog2FracTable ∧ (0 : Word).toNat ≤ (0xFFFFFFFF : Word).toNat := by decide

theorem witness_TlookupIndex :
    base.cfg.cnrTables[(1 : Byte).toNat]? = some [⟨2000, 0⟩, ⟨1500, 500⟩, ⟨1000, 1000⟩] ∧
    cnrTableWf [⟨2000, 0⟩, ⟨1500, 500⟩, ⟨1000, 1000⟩] = true := by decide

/-- EX1 with a model whose one segment leaves the i32 range. -/
def steep : State := State.attach { ex1 with pwlModels := [[⟨0, 10, -1, 1, 0x7FFFFFFF⟩]], rssiTCal := 0 }

theorem witness_PwlFirstSegment :
    base.cfg.pwlModels[(0 : Byte).toNat]? = some [⟨0, 100, 3, 2, 500⟩, ⟨100, 400, -1, 4, 350⟩, ⟨400, 1000, 0, 1, 425⟩] ∧
    pwlModelWf [⟨0, 100, 3, 2, 500⟩, ⟨100, 400, -1, 4, 350⟩, ⟨400, 1000, 0, 1, 425⟩] = true ∧
    FirstSegment [⟨0, 100, 3, 2, 500⟩, ⟨100, 400, -1, 4, 350⟩, ⟨400, 1000, 0, 1, 425⟩] 399 ⟨100, 400, -1, 4, 350⟩ ∧
    respOf (exec (.pwl 0 399) base) = ok [424] ∧
    steep.cfg.pwlModels[(0 : Byte).toNat]? = some [⟨0, 10, -1, 1, 0x7FFFFFFF⟩] ∧
    pwlModelWf [⟨0, 10, -1, 1, 0x7FFFFFFF⟩] = true ∧
    FirstSegment [⟨0, 10, -1, 1, 0x7FFFFFFF⟩] 9 ⟨0, 10, -1, 1, 0x7FFFFFFF⟩ ∧
    faultOf (exec (.pwl 0 9) steep) = some .resultRange ∧ faultOf (exec (.pwl 0 1000) base) = some .pwlNoSegment := by
  refine ⟨by decide, by decide, ⟨[⟨0, 100, 3, 2, 500⟩], [⟨400, 1000, 0, 1, 425⟩], rfl, by decide, by decide⟩, by decide,
    by decide, by decide, ⟨[], [], rfl, by decide, by decide⟩, by decide, by decide⟩

/-- The four ways out of PERCALC, and both sides of the first bound. -/
theorem witness_PercalcOutcome :
    faultOf (exec (.percalc 7 0) base) = some .perDivZero ∧
    faultOf (exec (.percalc 4294968 0xFFFFFFFF) base) = some .perOverflow ∧
    faultOf (exec (.percalc 4294967 0xFFFFFFFF) base) = some .perOverflow ∧
    faultOf (exec (.percalc 4294967 1) base) = some .perOverflow ∧
    respOf (exec (.percalc 4294967 4294967) base) = ok [1000000] := by decide

theorem witness_PercalcRoundsToNearest :
    ∃ t, base.faultReason = none ∧ exec (.percalc 1 3) base = .next t ∧ t.faultReason = none :=
  ⟨_, rfl, rfl, by decide⟩

/-- The five ways out of RSSI_T. -/
theorem witness_RssiTOutcome :
    FirstRange base.cfg.rssiTRanges 999999 ⟨0, 1000000, 0⟩ ∧ respOf (exec (.rssiT 399 999999) base) = ok [324] ∧
    faultOf (exec (.rssiT 3 1000000) base) = some .rssiFreqNoRange ∧
    faultOf (exec (.rssiT 0x80000000 5) base) = some .resultRange ∧
    faultOf (exec (.rssiT 1000 1) base) = some .pwlNoSegment ∧
    faultOf (exec (.rssiT 9 1) steep) = some .resultRange ∧
    faultOf (exec (.rssiT 0 1) (State.attach { ex1 with rssiTCal := 0x7FFFFFFF })) = some .resultRange :=
  ⟨⟨[], [], rfl, by decide, by decide⟩, by decide, by decide, by decide, by decide, by decide, by decide⟩

theorem witness_RssiSOutcome :
    base.cfg.rssiSDiv ≠ 0 ∧ respOf (exec (.rssiS 8) base) = ok [-1] ∧
    faultOf (exec (.rssiS 8) (State.attach { ex1 with rssiSOffset := 0x80000000 })) = some .resultRange := by decide

theorem witness_CnrTOutcome :
    respOf (exec (.cnrT 0) base) = ok [-500, 0] ∧
    faultOf (exec (.cnrT 1000) (State.attach { ex1 with cnrTMul := 0x7FFFFFFF })) = some .resultRange := by decide

theorem witness_RelativeScaleClamped :
    configWf ex1 = true ∧ { ex1 with cnrRelHi := 0 }.cnrRelHi.toInt ≤ { ex1 with cnrRelHi := 0 }.cnrRelLo.toInt :=
  ⟨test_ex1_wellformed, by decide⟩

/-- EX1 with one threshold for IsdbS and two for IsdbS3. -/
def thresholds : Config :=
  { ex1 with
    cnrSelectS := { base := 0, thresholds := [(20000, 1)] }
    cnrSelectS3 := { base := 1, thresholds := [(10000, 0), (20000, 1)] } }

/-- The default forms, the two sides of a threshold, and the three ranges of two. -/
theorem witness_CnrSIsTlookup :
    configWf ex1 = true ∧ ex1.cnrSelectS = defaultCnrSelectS ∧ ex1.cnrSelectS3 = defaultCnrSelectS3 ∧
    configWf thresholds = true ∧
    respOf (exec (.cnrS 2 900 19999) (State.attach thresholds)) = ok [0] ∧
    respOf (exec (.cnrS 2 900 20000) (State.attach thresholds)) = ok [1000] ∧
    (Selected thresholds.cnrSelectS3 9999 1 ∧ Selected thresholds.cnrSelectS3 10000 0 ∧
      Selected thresholds.cnrSelectS3 20000 1) ∧
    respOf (exec (.cnrS 3 900 9999) (State.attach thresholds)) = ok [1000] ∧
    respOf (exec (.cnrS 3 900 19999) (State.attach thresholds)) = ok [0] ∧
    respOf (exec (.cnrS 3 900 20000) (State.attach thresholds)) = ok [1000] :=
  ⟨test_ex1_wellformed, by decide, by decide, by decide +kernel, by decide, by decide,
    ⟨.inl ⟨rfl, by decide⟩, .inr ⟨[], 10000, [(20000, 1)], rfl, by decide, by decide⟩,
      .inr ⟨[(10000, 0)], 20000, [], rfl, by decide, by decide⟩⟩, by decide, by decide, by decide⟩

/-- Masks 0x00, 0xFF and another, the shortest and the longest run of answers. -/
theorem witness_BitFieldCommandsComplete :
    AllOk base (accessAnswers none 0x00) ∧ AllOk (withEnv (oks 1) base) (accessAnswers none 0xFF) ∧
    AllOk (withEnv (oks 3) base) (accessAnswers (some 0x10) 0x0F) ∧
    AllOk (withEnv (oks 2) base) (accessAnswers none 0x00 + 2) ∧
    AllOk (withEnv (oks 5) base) (accessAnswers (some 0x10) 0x0F + 2) :=
  ⟨allOk_of _ _ (by decide), allOk_of _ _ (by decide), allOk_of _ _ (by decide), allOk_of _ _ (by decide),
    allOk_of _ _ (by decide)⟩

/-- The first, second and last primitive fails. -/
theorem witness_BitFieldStopsAtFirstFailure :
    (AllOk (withEnv [.err] base) 0 ∧ (accessEvents ex1 .demod (some 0x10) 0xA5 1 0x0F 0)[0]? = some (.busWrite 0x64 0 [0x10] true)) ∧
    (AllOk (withEnv [okByte 0, .err] base) 1 ∧
      (accessEvents ex1 .demod (some 0x10) 0xA5 1 0x0F 0)[1]? = some (.busRead 0x64 0xA5 1 (some [0]))) ∧
    (AllOk (withEnv [okByte 0, okByte 0, .err] base) 2 ∧
      (accessEvents ex1 .demod (some 0x10) 0xA5 1 0x0F 0)[2]? = some (.busWrite 0x64 0xA5 [1] true)) :=
  ⟨⟨allOk_of _ _ (by decide), by decide⟩, ⟨allOk_of _ _ (by decide), by decide⟩, allOk_of _ _ (by decide), by decide⟩

/-- A failed repeater-on, a failed access, a failed repeater-off. -/
theorem witness_TunerBitFieldFailure :
    (withEnv [.err, okByte 0] base).env = .err :: okByte 0 :: [] ∧
    (AllOk (withEnv [okByte 0, .err, .err] base) 1 ∧
      (accessEvents ex1 .tuner none 0x45 5 0xFF 0)[0]? = some (.busWrite 0x60 0x45 [5] true)) ∧
    (AllOk (withEnv [okByte 0, .err] base) (accessAnswers none 0x00 + 1) ∧
      (withEnv [okByte 0, .err] base).env[accessAnswers none 0x00 + 1]? = some .err) :=
  ⟨by decide, ⟨allOk_of _ _ (by decide), by decide⟩, allOk_of _ _ (by decide), by decide⟩

/-- Both phases of INIT, with the answers of each clause. -/
theorem witness_InitRunsItsSequences :
    (∃ r, (running .initDemod 1 none (withEnv [okByte 0] base)).run = some r ∧ r.phase = .initDemod) ∧
    (∃ r, (running .initTuner 3 none (withEnv [okByte 0] base)).run = some r ∧ r.phase = .initTuner) ∧
    respOf (exec .endSeq (running .initDemod 1 none (withEnv [.err, okByte 0] base))) =
      some { status := .hardwareIoError, results := [] } ∧
    respOf (exec .endSeq (running .initTuner 3 none (withEnv [.err] base))) =
      some { status := .hardwareIoError, results := [] } := ⟨⟨_, rfl, rfl⟩, ⟨_, rfl, rfl⟩, by decide, by decide⟩

theorem witness_SleepTransition :
    base.ds ≠ .active ∧ asleep.ds ≠ .active ∧
    ((active .isdbS3).ds = .active ∧ (active .isdbS3).sys = systemValue .isdbS3) ∧
    (∃ r, (running (.sleep .isdbT) 1 none (active .isdbT)).run = some r ∧ r.phase = .sleep .isdbT) :=
  ⟨by decide, by decide, by decide, _, rfl, rfl⟩

/-- Each cause of R257 at its bound: V-SM15, V-SM16, V-SM9, V-SM11, V-SM18, V-SM8. -/
theorem witness_SetFrontendRefusesUnsupported :
    Unsupported asleep 0 6 1 0 ∧ Unsupported asleep 4 0 1 0 ∧ Unsupported asleep 1 5 509142 0 ∧
    Unsupported asleep 1 6 1048576 0 ∧ Unsupported asleep 2 0 67108862 0 ∧ Unsupported base 1 6 509142 0 := by
  refine ⟨?_, ?_, ?_, ?_, ?_, ?_⟩ <;> simp [Unsupported, targetNumber, asleep, base, State.fresh, ex1]

/-- The three cases, with the largest frequencies: V-SM13, V-SM17 and a change of system. -/
theorem witness_SetFrontendCases :
    (¬Unsupported asleep 1 6 1048575 0 ∧ targetNumber asleep.cfg 1 0 = systemNumber .isdbT) ∧
    (¬Unsupported (active .isdbS) 2 0 67108861 0 ∧ targetNumber ex1 2 0 = systemNumber .isdbS ∧
      (active .isdbS).sys = systemValue .isdbS) ∧
    (¬Unsupported (active .isdbT) 2 0 1318000 0x4011 ∧ targetNumber ex1 2 0x4011 = systemNumber .isdbS3 ∧
      (active .isdbT).sys = systemValue .isdbT) := by
  refine ⟨⟨?_, by decide⟩, ⟨?_, by decide, rfl⟩, ?_, by decide, rfl⟩ <;>
    simp [Unsupported, targetNumber, asleep, active, base, State.fresh, ex1]

/-- Every phase of a tune before its last, with the answers of each clause. -/
theorem witness_TuneGoesOn :
    placeOf (exec .endSeq (running (.tuneSleep .isdbS (reqT false)) 1 (some .mhz6) (active .isdbS))) =
      some (.tuneS2A (reqT false), 0) ∧
    placeOf (exec .endSeq (running (.tuneS2A (reqT false)) 6 (some .mhz6) (withEnv [okByte 0] asleep))) =
      some (.tuneReset (reqT false), 0) ∧
    placeOf (exec .endSeq (running (.tuneSame (reqT true)) 1 (some .mhz6) (withEnv [okByte 0] (active .isdbT)))) =
      some (.tuneFreq (reqT true), 0) ∧
    respOf (exec .endSeq (running (.tuneSame (reqT true)) 1 (some .mhz6) (withEnv [.err, okByte 0] (active .isdbT)))) =
      some { status := .hardwareIoError, results := [] } ∧
    placeOf (exec .endSeq (running (.tuneReset (reqT false)) 1 (some .mhz6) asleep)) = some (.tuneLoad (reqT false), 0) ∧
    placeOf (exec .endSeq (running (.tuneLoad (reqT false)) 1 (some .mhz6) asleep)) = some (.tuneFreq (reqT false), 0) := by
  decide

/-- A block whose tune stands at its last entry. -/
def lastEntry (same : Bool) : State :=
  { withEnv [okByte 0] (if same then active .isdbT else { active .isdbT with ds := .sleep }) with
    rep := true
    lock := .held
    run := some { phase := .tuneFreq (reqT same), index := 4, freqw := some 0x07C4D6, bwsel := some .mhz6, tstuple := none } }

theorem witness_TuneFinishes :
    (stateOf (exec .endSeq (lastEntry false))).map (fun s => (stateWord s, s.resp)) = some (0x00062112, ok []) ∧
    (stateOf (exec .endSeq (lastEntry true))).map (fun s => (stateWord s, s.resp)) = some (0x00062112, ok []) ∧
    respOf (exec .endSeq (withEnv [.err] (lastEntry true))) = some { status := .hardwareIoError, results := [] } := by
  decide

/-- The invariants hold of a block that is Active between commands. -/
theorem active_inv (sy : System) : BlockInv (active sy) ∧ RequestInv (active sy) :=
  ⟨⟨fun _ => ⟨sy, rfl, rfl, rfl⟩, by simp [active, base, State.fresh], by simp [active, base, State.fresh],
    by simp [active, base, State.fresh], by simp [active, base, State.fresh], by simp [active, base, State.fresh],
    by simp [LockConsistent, active, base, State.fresh]⟩, by cases sy <;> decide, by simp [active, base, State.fresh]⟩

/-- The invariants hold of a block at the end of a tune. -/
theorem lastEntry_inv (same : Bool) : BlockInv (lastEntry same) ∧ RequestInv (lastEntry same) := by
  refine ⟨⟨?_, ?_, ?_, fun _ _ _ => rfl, fun _ => by cases same <;> rfl, ?_, ?_⟩, by cases same <;> decide, ?_⟩
  · cases same
    · intro h; cases h
    · exact fun _ => ⟨.isdbT, rfl, rfl, rfl⟩
  · intro r hr; cases hr
    cases same <;> simp [PhaseConsistent, reqT, lastEntry, withEnv, active, base, State.fresh]
  · intro r hr; cases hr; cases same <;> rfl
  · intro h; cases same <;> cases h
  · exact ⟨fun _ => .inl rfl, fun _ => rfl⟩
  · intro r hr; cases hr; cases same <;> exact ⟨rfl, rfl⟩

theorem witness_SameSystemTuneStaysLight :
    (BlockInv (active .isdbT) ∧ (active .isdbT).ds = .active ∧ (active .isdbT).sys = systemValue .isdbT ∧
      targetNumber ex1 1 0 = systemNumber .isdbT ∧
      placeOf (exec (.setFrontend 1 8 509142 0) (active .isdbT)) =
        some (.tuneSame { target := .isdbT, bw := 8, freq := 509142, same := true }, 0)) ∧
    (BlockInv (lastEntry true) ∧ SameSystemPhase (.tuneFreq (reqT true)) ∧ ∃ t, step (lastEntry true) = .next t) :=
  ⟨⟨(active_inv .isdbT).1, by decide, by decide, by decide, by decide⟩, (lastEntry_inv true).1, rfl, _, rfl⟩

theorem witness_SuccessfulTuneLeavesActive :
    BlockInv (lastEntry false) ∧ respOf (step (lastEntry false)) = ok [] := ⟨(lastEntry_inv false).1, by decide⟩

/-- V-RS8, and V-RS6: full lock on a satellite system. -/
theorem witness_ReadStatusCompletes :
    base.ds ≠ .active ∧ asleep.ds ≠ .active ∧ (active .isdbS).ds = .active ∧ (active .isdbS).sys = systemValue .isdbS ∧
    respOf (exec .readStatus (withEnv [okByte 0, okByte 1, okByte 0, .ok 0x1F 0x40 0 0, okByte 0, .ok 2 0xBC 0 0]
      (active .isdbS))) = ok [0x31F, 0xFFFFFE0C, 0x64, 0, 0] := by decide

/-- Of `ReadStatusReadsInOrder` and `ReadStatusMetrics`: V-RS2 and V-RS4, with each valid bit clear. -/
theorem witness_ReadStatusMetrics :
    respOf (exec .readStatus (withEnv [okByte 0, okByte 7, okByte 0, okByte 7, okByte 0, .ok 0 3 0 0, okByte 0,
      .ok 0 0 0xA 0, okByte 0, .ok 3 0xE8 0 0] (active .isdbT))) = ok [0x903, 0x18C, 0, 0, 0x2710] ∧
    respOf (exec .readStatus (withEnv [okByte 0, okByte 6, okByte 0, okByte 6, okByte 0, .ok 3 0xE8 0 0, okByte 0,
      okByte 0, okByte 0, okByte 0, okByte 0, okByte 0] (active .isdbT))) = ok [0x61F, 0, 0xFFFFFE0C, 0, 0] := by decide

/-- A WR and every kind of WRV source, at the first and last byte of a row. -/
theorem witness_WriteEntriesComplete :
    AllOk (withEnv (oks 3) (lastEntry true)) (accessAnswers (some 0x10) 0x0F) ∧
    SourceByte ex1 { freqRun with bwsel := some .mhz6, tstuple := some ⟨0, 1, 8, 0⟩ } .freqw0 0xD6 ∧
    SourceByte ex1 { freqRun with bwsel := some .mhz6, tstuple := some ⟨0, 1, 8, 0⟩ } .freqw2 0x07 ∧
    SourceByte ex1 { freqRun with bwsel := some .mhz6, tstuple := some ⟨0, 1, 8, 0⟩ } (.bandp 0) 0x60 ∧
    SourceByte ex1 { freqRun with bwsel := some .mhz6, tstuple := some ⟨0, 1, 8, 0⟩ } (.bandp 15) 0x6F ∧
    SourceByte ex1 { freqRun with bwsel := some .mhz6, tstuple := some ⟨0, 1, 8, 0⟩ } (.tunerbw 15) 6 ∧
    SourceByte ex1 { freqRun with bwsel := some .mhz6, tstuple := some ⟨0, 1, 8, 0⟩ } .period 8 :=
  ⟨allOk_of _ _ (by decide), ⟨_, rfl, by decide⟩, ⟨_, rfl, by decide⟩, ⟨_, rfl, by decide⟩, ⟨_, rfl, by decide⟩,
    ⟨_, rfl, by decide⟩, _, rfl, rfl⟩

theorem witness_WrvSourceUnsetFaults :
    (running .initTuner 0 none base).faultReason = none ∧
    (∃ r, (running .initTuner 0 none base).run = some r ∧ SourceUnset r .freqw2 ∧ SourceUnset r (.bandp 0) ∧
      SourceUnset r (.tunerbw 15) ∧ SourceUnset r .ifClockSelect) := ⟨rfl, _, rfl, rfl, rfl, rfl, rfl⟩

/-- A write outside and inside a bracket, and a read. -/
theorem witness_EntriesStopAtFirstFailure :
    (AllOk (running .initDemod 0 none (withEnv [.err] base)) 0 ∧
      (accessEvents ex1 .demod none 1 0 0xFF 0)[0]? = some (.busWrite 0x64 1 [0] true) ∧ Phase.initDemod.inBracket = false) ∧
    (AllOk (running .initTuner 0 none (withEnv [okByte 0, .err, .err] base)) 1 ∧
      (accessEvents ex1 .tuner none 4 1 0x03 0)[1]? = some (.busWrite 0x60 4 [1] true) ∧ Phase.initTuner.inBracket = true) ∧
    (∃ r, (running .initTuner 2 none (withEnv [.err, .err] base)).run = some r ∧
      EntryEvents (running .initTuner 2 none (withEnv [.err, .err] base)) r ⟨none, .tuner, 2, 0xFF⟩
        (.pollz ⟨none, .tuner, 2, 0xFF⟩) [.busRead 0x60 2 1 (some [0])]) :=
  ⟨⟨allOk_of _ _ (by decide), by decide, rfl⟩, ⟨allOk_of _ _ (by decide), by decide, rfl⟩, _, rfl, .inr ⟨.inl rfl, rfl⟩⟩

/-- INIT's cold boot stands at its POLLZ, and the chip reports a failed boot. -/
def failedBoot : State := { running .initTuner 2 none (withEnv [okByte 1, okByte 0] base) with rep := true }

theorem failedBoot_good : GoodState failedBoot :=
  ⟨test_ex1_wellformed, rfl, ⟨fun h => by simp [failedBoot, running, withEnv, base, State.fresh] at h,
    fun r hr => by cases hr; trivial, fun r hr => by cases hr; rfl, fun _ _ _ => rfl, fun _ => rfl,
    fun h => by simp [failedBoot, running, withEnv, base, State.fresh] at h,
    ⟨fun _ => .inl rfl, fun _ => rfl⟩⟩, fun r hr => by cases hr; decide⟩

/-- Each status is reached from a state with no response. -/
theorem witness_StatusesByInstruction :
    (failedBoot.resp = none ∧ respOf (step failedBoot) = some { status := .tunerInitError, results := [] }) ∧
    base.resp = none ∧
    respOf (exec (.setBits .demod 0x45 5 0xFF) (withEnv [.err] base)) = some { status := .busError, results := [] } ∧
    respOf (exec (.wr ⟨none, .demod, 1, 0xFF⟩ 0) (running .initDemod 0 none (withEnv [.err] base))) =
      some { status := .hardwareIoError, results := [] } ∧
    respOf (exec (.pollz ⟨none, .tuner, 2, 0xFF⟩) (running .initTuner 2 none (withEnv [okByte 1, .err] base))) =
      some { status := .tunerInitError, results := [] } ∧
    respOf (exec (.setFrontend 1 6 509142 0) base) = some { status := .unsupportedSystem, results := [] } ∧
    respOf (exec (.pwl 1 0) base) = some { status := .illegalCommand, results := [] } := by decide

theorem witness_DelayAndHookComplete : (running .initTuner 1 none base).run.isSome = true := rfl

/-- A byte that passes, one that fails, and masks whose lowest bit is 0 and 7. -/
theorem witness_ReadEntriesComplete :
    AllOk (running .initTuner 2 none (withEnv [okByte 1, .err] base)) (readAnswer 1 none) ∧
    AllOk (running .initTuner 2 none (withEnv (oks 2) base)) (readAnswer 1 (some 0x10)) ∧
    (1 : Byte) &&& 0xFF ≠ 0 ∧ (0 : Byte) &&& 0xFF = 0 ∧
    (0xFF : Byte).toNat % 2 ^ (0 + 1) = 2 ^ 0 ∧ (0x80 : Byte).toNat % 2 ^ (7 + 1) = 2 ^ 7 ∧
    ex1.tsclkTable[((0xFF : Byte) &&& 0x06).toNat / 2 ^ 1]? = some ⟨1, 1, 2, 1⟩ :=
  ⟨allOk_of _ _ (by decide), allOk_of _ _ (by decide), by decide, by decide, by decide, by decide, by decide⟩

/-- Of `StepKeepsBlockInvariant` and `StepKeepsRequestInvariant`. -/
theorem witness_StepKeepsInvariants :
    BlockInv (lastEntry true) ∧ RequestInv (lastEntry true) ∧ ∃ t, step (lastEntry true) = .next t :=
  ⟨(lastEntry_inv true).1, (lastEntry_inv true).2, _, rfl⟩

/-- Each clause of the refusals. -/
theorem witness_RefusalsByName :
    (base.run = none ∧ Instr.endSeq.isCommand = false) ∧
    ({ base with ds := .active }.ds = .active ∧ { base with ds := .active }.sys = .unknown ∧
      ¬Unsupported { base with ds := .active } 1 6 509142 0) ∧
    (running (.tuneS2A (reqT false)) 3 none base).run.isSome = true ∧
    (∃ x, exec (.rssiS 1) (State.attach badDivisor) = .refused x) := by
  refine ⟨⟨rfl, rfl⟩, ⟨rfl, rfl, ?_⟩, rfl, _, rfl⟩
  simp [Unsupported, targetNumber, base, State.fresh, ex1]

/-- A good state in the middle of a tuner sequence, inside the bracket: of `GoodStatesStepSafely`, `TunerOnlyThroughRepeater`
and `RunningCommandEnds`. -/
theorem witness_GoodState :
    GoodState (lastEntry true) ∧ (lastEntry true).run.isSome = true ∧
    (lastEntry true).cfg.demodAddr ≠ (lastEntry true).cfg.tunerAddr ∧ (∃ t, step (lastEntry true) = .next t) :=
  ⟨⟨test_ex1_wellformed, rfl, (lastEntry_inv true).1, fun r hr => by cases hr; decide⟩, rfl, by decide, _, rfl⟩

/-- Both sides of attach. -/
theorem witness_AttachGivesGoodState : configWf ex1 = true ∧ configWf badDivisor = false :=
  ⟨test_ex1_wellformed, test_attach_refuses.1⟩

theorem witness_OkLeavesRepeaterOff :
    BlockInv (lastEntry true) ∧ respOf (step (lastEntry true)) = ok [] ∧
    eventsOf (step (lastEntry true)) = some [.setRepeater false true] := ⟨(lastEntry_inv true).1, by decide, by decide⟩

theorem witness_StepOnlyExtendsHistory : ∃ t, step (withPort [⟨0x24000000, []⟩] base) = .next t := ⟨_, rfl⟩

theorem witness_PureCommandsChangeNothing :
    (∃ t, exec .getState base = .next t) ∧ (∃ t, exec (.percalc 7 0) base = .next t) := ⟨⟨_, rfl⟩, _, rfl⟩

/-- Two instances; the first one runs INIT and holds the lock. -/
def twoBlocks : SharedBus :=
  { cfg := ex1, instances := [some (running .initDemod 0 none base), some (withPort [⟨0x24000000, []⟩] base)]
    owner := some 0, draws := 0, busHistory := [] }

theorem instanceAt_two {b : SharedBus} {x y : State} (h : b.instances = [some x, some y]) (k : Nat) (s : State)
    (hk : b.instanceAt k = some s) : (k = 0 ∧ s = x) ∨ (k = 1 ∧ s = y) := by
  match k with
  | 0 => simp [SharedBus.instanceAt, h] at hk; exact .inl ⟨rfl, hk.symm⟩
  | 1 => simp [SharedBus.instanceAt, h] at hk; exact .inr ⟨rfl, hk.symm⟩
  | n + 2 => simp [SharedBus.instanceAt, h] at hk

theorem twoBlocks_inv : ContextInv twoBlocks := by
  refine ⟨⟨0, _, rfl⟩, fun k hk => by cases hk; decide, fun k s hk => ?_⟩
  rcases instanceAt_two rfl k s hk with ⟨rfl, rfl⟩ | ⟨rfl, rfl⟩ <;> decide

theorem witness_LockedBusExcludesOthers :
    (∃ b, SharedBus.create ex1 = .next b) ∧ ContextInv twoBlocks ∧ SharedBus.Reaches twoBlocks twoBlocks.join ∧
    twoBlocks.owner = some 0 ∧ (1 : Nat) ≠ 0 ∧ ∃ b', twoBlocks.move 1 = .next b' :=
  ⟨⟨_, (SharedBus.create_eq_next _ _).mpr ⟨test_ex1_wellformed, rfl⟩⟩, twoBlocks_inv, .join (.refl _), rfl, by decide, _, rfl⟩

/-- Two instances; the first one is about to divide by zero. -/
def beforeFault : SharedBus :=
  { cfg := ex1, instances := [some (withPort [⟨0x06000000, [7, 0]⟩] base), some base], owner := none, draws := 0
    busHistory := [] }

theorem beforeFault_inv : ContextInv beforeFault := by
  refine ⟨⟨0, _, rfl⟩, (fun k hk => by cases hk), fun k s hk => ?_⟩
  rcases instanceAt_two rfl k s hk with ⟨rfl, rfl⟩ | ⟨rfl, rfl⟩ <;> decide

theorem witness_FaultedInstanceKeepsLock :
    ContextInv beforeFault ∧ ∃ b' b'' t, beforeFault.move 0 = .next b' ∧ b'.instanceAt 0 = some t ∧
      t.faultReason.isSome = true ∧ b'.move 1 = .next b'' ∧ SharedBus.Reaches b' b'' :=
  ⟨beforeFault_inv, _, _, _, rfl, rfl, by decide, rfl, .move (.refl _) 1 rfl⟩

/-- A shared context ends with its last instance, and a running command is not cancelled (R348, R345). -/
theorem test_detach : (twoBlocks.detach 0).map SharedBus.instances = some twoBlocks.instances ∧
    ((twoBlocks.detach 1).map fun b => (b.instanceAt 1).isSome) = some false ∧
    (beforeFault.detach 0 >>= fun b => b.detach 1) = none := by decide

end Sys2Proof.Tests
end

section
/-! What a step keeps (00_scope): the frame of one step, and the obligation on the history, the configuration and the port. -/

namespace Sys2Proof.Proofs

open Sys2Proof.Machine

theorem raiseIllegal_frame (s : State) : ExecFrame s (raiseIllegal s) := (Kept.refl s).responds _ _

/-- A step waits, or has an instruction's frame: from the state itself for an entry of the running sequence, from the state
that has taken the port's first command for a command, whether or not it decodes (R90, R334). -/
theorem step_frame {s t : State} (h : step s = .next t) :
    t = s ∨ ExecFrame s t ∨ ∃ c rest, s.port = c :: rest ∧ ExecFrame (takeCommand rest s) t := by
  obtain ⟨-, -, entry | idle | command⟩ := step_cases h
  · obtain ⟨_, _, _, -, -, -, he⟩ := entry
    exact .inr (.inl (exec_frame he))
  · obtain ⟨-, rfl, -⟩ := idle
    exact .inl rfl
  · obtain ⟨c, rest, -, -, hp, illegal | legal⟩ := command
    · obtain ⟨_, -, rfl⟩ := illegal
      exact .inr (.inr ⟨c, rest, hp, raiseIllegal_frame _⟩)
    · obtain ⟨_, -, he⟩ := legal
      exact .inr (.inr ⟨c, rest, hp, exec_frame he⟩)

/-- Settles O57, by what a step's frame is in each of its three cases. -/
theorem stepOnlyExtendsHistory : Obligations.StepOnlyExtendsHistory := by
  intro s t h
  have hfault : s.faultReason = none := (step_cases h).1
  obtain rfl | frame | ⟨c, rest, hp, frame⟩ := step_frame h
  · exact ⟨rfl, rfl, ⟨[], by simp⟩, .inl rfl, hfault⟩
  · exact ⟨frame.cfg, frame.refused, frame.history, .inl frame.port, hfault⟩
  · have hport : t.port = rest := frame.port
    exact ⟨frame.cfg, frame.refused, frame.history, .inr ⟨c, by rw [hp, hport]⟩, hfault⟩

end Sys2Proof.Proofs
end

section
/-! The commands of one pure computation (41_numeric, R41, R262): no event, and nothing changed but the response. -/

namespace Sys2Proof.Proofs

open Sys2Proof.Machine Sys2Proof.Claims

/-- The end of a command that only computes: a response or a model fault, with no primitive called. -/
structure PureEnd (s t : State) : Prop where
  noEvent : NoEvent s t
  run : t.run = none
  ends : (∃ st ws, t = ended s st ws) ∨ ∃ x, t = raiseFault x s

variable {s t : State}

theorem respond_pureEnd (s : State) (st : Status) (ws : List Word) : PureEnd s (respond st ws s) :=
  ⟨⟨rfl, rfl, rfl, rfl⟩, rfl, .inl ⟨st, ws, rfl⟩⟩

theorem raiseFault_pureEnd (s : State) (x : FaultReason) : PureEnd s (raiseFault x s) :=
  ⟨⟨rfl, rfl, rfl, rfl⟩, rfl, .inr ⟨x, rfl⟩⟩

theorem finish_pureEnd {c : Calc (List Word)} (h : finish c s = .next t) : PureEnd s t := by
  obtain ⟨ws, -, e⟩ | ⟨x, -, e⟩ | ⟨d, -, e⟩ := finish_cases c s <;> rw [e] at h <;> cases h
  · exact respond_pureEnd s _ _
  · exact raiseFault_pureEnd s x

theorem execTlookup_pureEnd {id : Byte} {q : Word} (h : execTlookup id q s = .next t) : PureEnd s t := by
  unfold execTlookup at h
  split at h
  · cases h; exact respond_pureEnd s _ _
  · exact finish_pureEnd h

theorem execPwl_pureEnd {id : Byte} {v : Word} (h : execPwl id v s = .next t) : PureEnd s t := by
  unfold execPwl at h
  split at h
  · cases h; exact respond_pureEnd s _ _
  · exact finish_pureEnd h

theorem execCnrS_pureEnd {sys : BitVec 3} {code rate : Word} (h : execCnrS sys code rate s = .next t) : PureEnd s t := by
  unfold execCnrS at h
  split at h
  · exact finish_pureEnd h
  · exact finish_pureEnd h
  · cases h; exact respond_pureEnd s _ _

/-- Settles O58: each of these commands ends at once, with a response or through `finish`. -/
theorem pureCommandsChangeNothing : Obligations.PureCommandsChangeNothing := by
  intro i s t hi h
  have pureEnd : PureEnd s t := by
    cases i with
    | log2 _ | log10 _ | sext _ _ | getState => cases h; exact respond_pureEnd s _ _
    | percalc _ _ | rssiT _ _ | rssiS _ | cnrT _ => exact finish_pureEnd h
    | tlookup _ _ => exact execTlookup_pureEnd h
    | pwl _ _ => exact execPwl_pureEnd h
    | cnrS _ _ _ => exact execCnrS_pureEnd h
    | _ => exact hi.elim
  exact ⟨pureEnd.noEvent, pureEnd.run, pureEnd.ends⟩

end Sys2Proof.Proofs
end

section
/-! What an instruction can do, said once for all of them: it responds, faults, begins a sequence, goes on to the next entry,
or ends the running sequence. The invariants of the state are read off this list. -/

namespace Sys2Proof.Proofs

open Sys2Proof.Machine

/-- How a command enters its first sequence: the phase, BWSEL and the state it starts in (R250, R252, R255). -/
inductive Begins (s : State) : Phase → Option Bandwidth → State → Prop where
  | init : Begins s .initDemod none s
  | sleep {old : System} (hds : s.ds = .active) (hsys : s.sys = systemValue old) : Begins s (.sleep old) none s
  | sameSystem {req : TuneReq} (fits : requestFits s.cfg req.target req.bw req.freq = true) (hds : s.ds = .active)
      (hsys : s.sys = systemValue req.target) (same : req.same = true) :
      Begins s (.tuneSame req) (requestBwsel req.target req.bw) s
  | otherSystem {req : TuneReq} {old : System} (fits : requestFits s.cfg req.target req.bw req.freq = true)
      (hds : s.ds = .active) (hsys : s.sys = systemValue old) (other : old ≠ req.target) (same : req.same = false) :
      Begins s (.tuneSleep old req) (requestBwsel req.target req.bw) s
  | fromSleep {req : TuneReq} (fits : requestFits s.cfg req.target req.bw req.freq = true) (hds : s.ds = .sleep)
      (same : req.same = false) :
      Begins s (.tuneS2A req) (requestBwsel req.target req.bw) { s with sys := systemValue req.target }

/-- What an instruction that goes on makes of the state it runs in. -/
inductive Effect (s : State) : State → Prop where
  | responds {u : State} (bus : BusOnly s u) (st : Status) (ws : List Word) : Effect s (respond st ws u)
  | faults (x : FaultReason) : Effect s (raiseFault x s)
  /-- SLEEP outside Active (R252) -/
  | sleeps : Effect s (respond .ok [] (sleepFields s))
  | begins {p : Phase} {b : Option Bandwidth} {u : State} (start : Begins s p b u) : Effect s (startRun p b u)
  /-- the next entry; only RDSEL writes the run, and of it TSTUPLE (R207) -/
  | advances {r : Run} {u : State} (hr : s.run = some r) (bus : BusOnly s u) (hrep : u.rep = s.rep)
      (ts : Option TsTuple) : Effect s (advance { r with tstuple := ts } u)
  | endsSequence {r : Run} (hr : s.run = some r) : Effect s (afterSequence r s)

variable {s t : State}

theorem inSequence_eq_next {f : Run → Host.Outcome State Fault Refusal} (h : inSequence s f = .next t) :
    ∃ r, s.run = some r ∧ f r = .next t := by
  unfold inSequence at h
  split at h
  · cases h
  · next r hr => exact ⟨r, hr, h⟩

@[simp] theorem system?_systemValue (sy : System) : (systemValue sy).system? = some sy := by cases sy <;> rfl

theorem system?_eq_some {y : BroadcastSystem} {sy : System} (h : y.system? = some sy) : y = systemValue sy := by
  cases y <;> cases h <;> rfl

theorem systemValue_injective : Function.Injective systemValue := by
  intro a b h
  simpa using congrArg BroadcastSystem.system? h

/-! ### Commands -/

theorem responds_self (s : State) (st : Status) (ws : List Word) : Effect s (respond st ws s) :=
  .responds (.refl s) st ws

theorem PureEnd.effect (h : PureEnd s t) : Effect s t := by
  obtain ⟨st, ws, rfl⟩ | ⟨x, rfl⟩ := h.ends
  · exact responds_self s st ws
  · exact .faults x

theorem finishBits_effect {r : Res Unit} (h : BusOnly s r.state) : Effect s (finishBits r) := by
  obtain ⟨-, e⟩ | ⟨-, e⟩ := finishBits_cases r <;> rw [e] <;> exact .responds h _ _

theorem execSleep_effect (h : execSleep s = .next t) : Effect s t := by
  unfold execSleep at h
  split at h
  next hds =>
    split at h
    next old hsys => cases h; exact .begins (.sleep hds (system?_eq_some hsys))
    next => cases h
  all_goals cases h; exact .sleeps

theorem startTune_effect {sy : System} {bw : BitVec 4} {freq : Word} (fits : requestFits s.cfg sy bw freq = true)
    (known : s.ds ≠ .unknown) (h : startTune sy bw freq s = .next t) : Effect s t := by
  unfold startTune at h
  split at h
  next hds =>
    split at h
    next => cases h
    next old hsys =>
      split at h
      next heq =>
        cases h
        subst heq
        exact .begins (.sameSystem (req := ⟨old, bw, freq, true⟩) fits hds (system?_eq_some hsys) rfl)
      next hne =>
        cases h
        exact .begins (.otherSystem (req := ⟨sy, bw, freq, false⟩) fits hds (system?_eq_some hsys) hne rfl)
  next hds => exact absurd hds known
  next hds => cases h; exact .begins (.fromSleep (req := ⟨sy, bw, freq, false⟩) fits hds rfl)

theorem execSetFrontend_effect {sys : BitVec 3} {bw : BitVec 4} {freq sid : Word}
    (h : execSetFrontend sys bw freq sid s = .next t) : Effect s t := by
  unfold execSetFrontend at h
  split at h
  · cases h; exact responds_self s _ _
  · split at h
    next hfit => exact startTune_effect hfit.1 hfit.2 h
    next => cases h; exact responds_self s _ _

theorem execReadStatus_effect (h : execReadStatus s = .next t) : Effect s t := by
  unfold execReadStatus at h
  split at h
  next =>
    split at h
    next => cases h
    next sy _ =>
      have bus := statusWords_busOnly sy s
      split at h <;> rename_i hw <;> rw [hw] at bus <;> cases h <;> exact .responds bus _ _
  all_goals cases h; exact responds_self s _ _

/-! ### ROM entries -/

theorem afterAccess_effect {a : BusAddr} {r : Run} {res : Res Unit} (hr : s.run = some r)
    (h : AccessOnly a s res.state) : Effect s (afterAccess r res) := by
  obtain ⟨u, hu, e⟩ | ⟨u, hu, e⟩ := afterAccess_cases a r h <;> rw [e]
  · exact .advances hr hu.busOnly hu.rep r.tstuple
  · exact .responds hu _ _

theorem afterPoll_effect {a : BusAddr} {m : Byte} {r : Run} {res : Res Byte} (hr : s.run = some r)
    (h : AccessOnly a s res.state) : Effect s (afterPoll m r res) := by
  obtain ⟨u, hu, e⟩ | ⟨u, st, hu, -, e⟩ := afterPoll_cases a m r h <;> rw [e]
  · exact .advances hr hu.busOnly hu.rep r.tstuple
  · exact .responds hu _ _

theorem execEndSeq_effect (h : execEndSeq s = .next t) : Effect s t := by
  obtain ⟨r, hr, e⟩ := inSequence_eq_next h
  cases e
  exact .endsSequence hr

theorem execWr_effect {a : Access} {val : Byte} (h : execWr a val s = .next t) : Effect s t := by
  obtain ⟨r, hr, e⟩ := inSequence_eq_next h
  cases e
  exact afterAccess_effect hr (accessOp_accessOnly ..)

theorem execWrv_effect {a : Access} {src : Source} (h : execWrv a src s = .next t) : Effect s t := by
  obtain ⟨r, hr, e⟩ := inSequence_eq_next h
  split at e <;> cases e
  · exact .faults _
  · exact afterAccess_effect hr (accessOp_accessOnly ..)

theorem execDelay_effect {ms : BitVec 16} (h : execDelay ms s = .next t) : Effect s t := by
  obtain ⟨r, hr, e⟩ := inSequence_eq_next h
  cases e
  exact .advances hr (State.record_busOnly ..) rfl r.tstuple

theorem execPollz_effect {a : Access} (h : execPollz a s = .next t) : Effect s t := by
  obtain ⟨r, hr, e⟩ := inSequence_eq_next h
  cases e
  exact afterPoll_effect hr (readEntry_accessOnly ..)

theorem execRdsel_effect {a : Access} (h : execRdsel a s = .next t) : Effect s t := by
  obtain ⟨r, hr, e⟩ := inSequence_eq_next h
  have access := readEntry_accessOnly a s
  split at e
  · cases e
  · split at e <;> rename_i hread <;> rw [hread] at access
    · cases e
      obtain ⟨u, hu, ends⟩ := failSequence_cases .hardwareIoError r _
      rw [ends]
      exact .responds (access.busOnly.trans hu) _ _
    · split at e <;> cases e
      exact .advances hr access.busOnly access.rep _

theorem execHook_effect {id val : Byte} (h : execHook id val s = .next t) : Effect s t := by
  obtain ⟨r, hr, e⟩ := inSequence_eq_next h
  cases e
  exact .advances hr (State.record_busOnly ..) rfl r.tstuple

/-! ### All instructions -/

theorem exec_effect {i : Instr} (h : exec i s = .next t) : Effect s t := by
  cases i with
  | log2 _ | log10 _ | sext _ _ | getState => cases h; exact responds_self s _ _
  | percalc _ _ | rssiT _ _ | rssiS _ | cnrT _ => exact (finish_pureEnd h).effect
  | tlookup _ _ => exact (execTlookup_pureEnd h).effect
  | pwl _ _ => exact (execPwl_pureEnd h).effect
  | cnrS _ _ _ => exact (execCnrS_pureEnd h).effect
  | setBits tgt _ _ _ => cases h; exact finishBits_effect (onTarget_busOnly tgt (fun _ => setBitsOp_busOnly ..) s)
  | setBankedBits tgt _ _ _ _ =>
    cases h; exact finishBits_effect (onTarget_busOnly tgt (fun _ => setBankedBitsOp_busOnly ..) s)
  | init => cases h; exact .begins .init
  | sleep => exact execSleep_effect h
  | setFrontend _ _ _ _ => exact execSetFrontend_effect h
  | readStatus => exact execReadStatus_effect h
  | endSeq => exact execEndSeq_effect h
  | wr _ _ => exact execWr_effect h
  | wrv _ _ => exact execWrv_effect h
  | delay _ => exact execDelay_effect h
  | pollz _ => exact execPollz_effect h
  | rdsel _ => exact execRdsel_effect h
  | hook _ _ => exact execHook_effect h

/-! ### Steps -/

theorem Begins.kept {p : Phase} {b : Option Bandwidth} {u : State} (h : Begins s p b u) : Kept s u := by
  cases h with
  | init | sleep | sameSystem | otherSystem => exact .refl s
  | fromSleep => exact (Kept.refl s).fields rfl rfl rfl rfl rfl rfl

theorem Effect.frame (h : Effect s t) : ExecFrame s t := by
  cases h with
  | responds bus st ws => exact bus.kept.responds st ws
  | faults x => exact raiseFault_frame s x
  | sleeps => exact (sleepFields_kept s).responds _ _
  | begins start => exact startRun_frame _ _ start.kept
  | advances hr bus hrep ts => exact advance_frame bus _
  | endsSequence hr => exact afterSequence_frame _ s

/-- A step waits, or has an instruction's effect: on the state itself while a sequence runs, else on the state that has taken
a command from the port (R90, R200). -/
theorem step_effect (h : step s = .next t) :
    t = s ∨ (∃ r, s.run = some r ∧ s.faultReason = none ∧ Effect s t) ∨
    ∃ rest, s.run = none ∧ s.faultReason = none ∧ Effect (takeCommand rest s) t := by
  obtain ⟨hfault, -, entry | idle | command⟩ := step_cases h
  · obtain ⟨r, _, _, hr, -, -, he⟩ := entry
    exact .inr (.inl ⟨r, hr, hfault, exec_effect he⟩)
  · obtain ⟨-, rfl, -⟩ := idle
    exact .inl rfl
  · obtain ⟨_, rest, hr, -, -, illegal | legal⟩ := command
    · obtain ⟨_, -, rfl⟩ := illegal
      exact .inr (.inr ⟨rest, hr, hfault, responds_self _ _ _⟩)
    · obtain ⟨_, -, he⟩ := legal
      exact .inr (.inr ⟨rest, hr, hfault, exec_effect he⟩)

/-! ### What a sequence's END leaves of the running command -/

/-- If the command still runs in `t`, it has not responded since `s`, and serves the request of the run `r` with its BWSEL. -/
def Continues (s : State) (r : Run) (t : State) : Prop :=
  ∀ r', t.run = some r' → t.resp = s.resp ∧ r'.phase.request = r.phase.request ∧ r'.bwsel = r.bwsel

theorem continues_of_ended {r : Run} (h : t.run = none) : Continues s r t := by
  intro r' hr'
  rw [h] at hr'
  cases hr'

theorem gotoPhase_continues {r r' : Run} {p : Phase} (hresp : t.resp = s.resp) (hreq : p.request = r.phase.request)
    (hb : r'.bwsel = r.bwsel) : Continues s r (gotoPhase r' p t) := by
  intro _ h
  cases h
  exact ⟨hresp, hreq, hb⟩

theorem enterTuner_continues {r : Run} {req : TuneReq} (h : r.phase.request = some req) :
    Continues s r (enterTuner r req s) := by
  obtain ⟨u, -, e⟩ | ⟨u, bus, -, ⟨-, e⟩ | ⟨-, e⟩⟩ := enterTuner_cases r req s <;> rw [e]
  · exact continues_of_ended rfl
  · exact gotoPhase_continues bus.resp h.symm rfl
  · exact gotoPhase_continues bus.resp h.symm rfl

theorem afterSequence_continues (r : Run) (s : State) : Continues s r (afterSequence r s) := by
  unfold afterSequence
  split
  next hp =>
    obtain ⟨u, -, e⟩ | ⟨u, bus, -, e⟩ := enterColdboot_cases r s <;> rw [e]
    · exact continues_of_ended rfl
    · exact gotoPhase_continues bus.resp (by rw [hp]; rfl) rfl
  next =>
    obtain ⟨u, -, e⟩ | ⟨u, -, -, e⟩ := finishInit_cases s <;> rw [e] <;> exact continues_of_ended rfl
  next => exact continues_of_ended rfl
  next hp => exact gotoPhase_continues rfl (by rw [hp]; rfl) rfl
  next hp => exact enterTuner_continues (by rw [hp]; rfl)
  next hp => exact enterTuner_continues (by rw [hp]; rfl)
  next hp => exact gotoPhase_continues rfl (by rw [hp]; rfl) rfl
  next hp => exact gotoPhase_continues rfl (by rw [hp]; rfl) rfl
  next req _ =>
    obtain ⟨u, -, e⟩ | ⟨u, -, -, e⟩ := finishTune_cases req s <;> rw [e] <;> exact continues_of_ended rfl

end Sys2Proof.Proofs
end

section
/-! The invariant of the block's fields and of a running sequence (R43, R220, R224, R252, R255, R258). -/

namespace Sys2Proof.Proofs

open Sys2Proof.Machine

/-- What `BlockInv` asks of the running sequence (R220, R224, R255). -/
structure RunInv (s : State) (r : Run) : Prop where
  phase : PhaseConsistent s r.phase
  freqw : FreqwConsistent r
  bracket : r.phase.inBracket = true → s.rep = true

/-- The part of `BlockInv` that is about the block's fields and the running sequence, and not about the lock, the response
and the fault record. -/
structure FieldInv (s : State) : Prop where
  active : ActiveConsistent s
  running : ∀ r, s.run = some r → RunInv s r

/-- The fields on the way from a tune's sleep-to-active or same-system sequence to its latch (R255, R258). -/
structure TuneConsistent (s : State) (req : TuneReq) : Prop where
  sys : s.sys = systemValue req.target
  same : req.same = true → s.ds = .active
  other : req.same = false → s.ds = .sleep

variable {s t : State}

/-! ### Rules of the predicates -/

theorem activeConsistent_of_ne (h : s.ds ≠ .active) : ActiveConsistent s := fun ha => absurd ha h

theorem activeConsistent_of_sleep (h : s.ds = .sleep) : ActiveConsistent s :=
  activeConsistent_of_ne (by rw [h]; decide)

theorem activeConsistent_congr (h : ActiveConsistent s) (hds : t.ds = s.ds) (hsys : t.sys = s.sys) (hsub : t.sub = s.sub)
    (hvalid : t.tunedValid = s.tunedValid) : ActiveConsistent t := by
  unfold ActiveConsistent
  rw [hds, hsys, hsub, hvalid]
  exact h

theorem activeConsistent_of_busOnly (h : ActiveConsistent s) (bus : BusOnly s t) : ActiveConsistent t :=
  activeConsistent_congr h bus.ds bus.sys bus.sub bus.tunedValid

theorem phaseConsistent_congr {p : Phase} (h : PhaseConsistent s p) (hds : t.ds = s.ds) (hsys : t.sys = s.sys)
    (hsub : t.sub = s.sub) : PhaseConsistent t p := by
  unfold PhaseConsistent at h ⊢
  rw [hds, hsys, hsub]
  exact h

theorem FieldInv.of_ended (hr : t.run = none) (ha : ActiveConsistent t) : FieldInv t :=
  ⟨ha, fun r h => by rw [hr] at h; cases h⟩

theorem FieldInv.of_running {r : Run} (hr : t.run = some r) (ha : ActiveConsistent t) (h : RunInv t r) : FieldInv t :=
  ⟨ha, fun r' h' => by rw [hr] at h'; cases h'; exact h⟩

theorem TuneConsistent.busOnly {req : TuneReq} (h : TuneConsistent s req) (bus : BusOnly s t) : TuneConsistent t req :=
  ⟨bus.sys.trans h.sys, fun e => bus.ds.trans (h.same e), fun e => bus.ds.trans (h.other e)⟩

/-- On the same-system path the tuner is in the system's sub-mode already (R43), so its front end is not reset. -/
theorem TuneConsistent.sub_of_same {req : TuneReq} (h : TuneConsistent s req) (ha : ActiveConsistent s)
    (hsame : req.same = true) : s.sub = subModeOf req.target := by
  obtain ⟨sy, hsys, hsub, -⟩ := ha (h.same hsame)
  obtain rfl := systemValue_injective (hsys.symm.trans h.sys)
  exact hsub

/-! ### The effects -/

theorem begins_fieldInv {p : Phase} {b : Option Bandwidth} {u : State} (h : ActiveConsistent s) (start : Begins s p b u) :
    FieldInv (startRun p b u) := by
  cases start with
  | init => exact .of_running rfl h ⟨trivial, rfl, nofun⟩
  | sleep hds hsys => exact .of_running rfl h ⟨⟨hds, hsys⟩, rfl, nofun⟩
  | sameSystem _ hds hsys same => exact .of_running rfl h ⟨⟨hds, hsys, same⟩, rfl, nofun⟩
  | otherSystem _ hds hsys other same => exact .of_running rfl h ⟨⟨hds, hsys, other, same⟩, rfl, nofun⟩
  | fromSleep _ hds same => exact .of_running rfl (activeConsistent_of_sleep hds) ⟨⟨hds, rfl, same⟩, rfl, nofun⟩

theorem advance_fieldInv {r : Run} (h : FieldInv s) (hr : s.run = some r) (bus : BusOnly s t) (hrep : t.rep = s.rep)
    (ts : Option TsTuple) : FieldInv (advance { r with tstuple := ts } t) := by
  obtain ⟨phase, freqw, bracket⟩ := h.running r hr
  have ha := activeConsistent_of_busOnly h.active bus
  exact .of_running rfl ha ⟨phaseConsistent_congr phase bus.ds bus.sys bus.sub, freqw, fun hb => hrep.trans (bracket hb)⟩

theorem enterFreq_fieldInv {r : Run} {req : TuneReq} (ha : ActiveConsistent s) (h : TuneConsistent s req)
    (hsub : s.sub = subModeOf req.target) (hrep : s.rep = true) : FieldInv (enterFreq r req s) :=
  .of_running rfl ha ⟨⟨h.sys, hsub, h.same, h.other⟩, rfl, fun _ => hrep⟩

theorem enterTuner_fieldInv {r : Run} {req : TuneReq} (ha : ActiveConsistent s) (h : TuneConsistent s req)
    (hf : r.freqw = none) : FieldInv (enterTuner r req s) := by
  obtain ⟨u, bus, e⟩ | ⟨u, bus, hrep, ⟨hsub, e⟩ | ⟨hsub, e⟩⟩ := enterTuner_cases r req s <;> rw [e] <;>
    have hu := activeConsistent_of_busOnly ha bus
  · exact .of_ended rfl hu
  · have hsame : req.same = false := Bool.eq_false_iff.mpr fun hs => hsub (h.sub_of_same ha hs)
    have k := h.busOnly bus
    exact .of_running rfl hu ⟨⟨k.other hsame, k.sys, hsame⟩, hf, fun _ => hrep⟩
  · exact enterFreq_fieldInv hu (h.busOnly bus) (bus.sub.trans hsub) hrep

/-- The latch completes what R43 asks of Active: SYS and SUB are the target's, and a tune is latched (R255, R259). -/
theorem finishTune_fieldInv {req : TuneReq} (ha : ActiveConsistent s) (hsys : s.sys = systemValue req.target)
    (hsub : s.sub = subModeOf req.target) : FieldInv (finishTune req s) := by
  obtain ⟨u, bus, e⟩ | ⟨u, bus, -, e⟩ := finishTune_cases req s <;> rw [e]
  · have hu := activeConsistent_of_busOnly ha bus
    exact .of_ended rfl hu
  · refine .of_ended rfl fun _ => ⟨req.target, ?_⟩
    split <;> exact ⟨bus.sys.trans hsys, bus.sub.trans hsub, rfl⟩

theorem finishInit_fieldInv (ha : ActiveConsistent s) : FieldInv (finishInit s) := by
  obtain ⟨u, bus, e⟩ | ⟨u, -, -, e⟩ := finishInit_cases s <;> rw [e]
  · have hu := activeConsistent_of_busOnly ha bus
    exact .of_ended rfl hu
  · exact .of_ended rfl (activeConsistent_of_sleep rfl)

theorem enterColdboot_fieldInv {r : Run} (ha : ActiveConsistent s) (hf : r.freqw = none) :
    FieldInv (enterColdboot r s) := by
  obtain ⟨u, bus, e⟩ | ⟨u, bus, hrep, e⟩ := enterColdboot_cases r s <;> rw [e] <;>
    have hu := activeConsistent_of_busOnly ha bus
  · exact .of_ended rfl hu
  · exact .of_running rfl hu ⟨trivial, hf, fun _ => hrep⟩

theorem afterSequence_fieldInv {r : Run} (h : ActiveConsistent s) (hr : RunInv s r) : FieldInv (afterSequence r s) := by
  obtain ⟨phase, freqw, bracket⟩ := hr
  unfold FreqwConsistent at freqw
  unfold afterSequence
  cases hp : r.phase with rw [hp] at phase freqw bracket
  | initDemod => exact enterColdboot_fieldInv h freqw
  | initTuner => exact finishInit_fieldInv h
  | sleep old => exact .of_ended rfl (activeConsistent_of_sleep rfl)
  | tuneSleep old req =>
    obtain ⟨-, -, -, hsame⟩ := phase
    exact .of_running rfl (activeConsistent_of_sleep rfl) ⟨⟨rfl, rfl, hsame⟩, freqw, nofun⟩
  | tuneS2A req =>
    obtain ⟨hds, hsys, hsame⟩ := phase
    exact enterTuner_fieldInv h ⟨hsys, by simp [hsame], fun _ => hds⟩ freqw
  | tuneSame req =>
    obtain ⟨hds, hsys, hsame⟩ := phase
    exact enterTuner_fieldInv h ⟨hsys, fun _ => hds, by simp [hsame]⟩ freqw
  | tuneReset req =>
    obtain ⟨hds, hsys, hsame⟩ := phase
    exact .of_running rfl (activeConsistent_of_sleep hds) ⟨⟨hds, hsys, hsame⟩, freqw, fun _ => bracket rfl⟩
  | tuneLoad req =>
    obtain ⟨hds, hsys, hsame⟩ := phase
    exact enterFreq_fieldInv (activeConsistent_of_sleep hds) ⟨hsys, by simp [hsame], fun _ => hds⟩ rfl (bracket rfl)
  | tuneFreq req =>
    obtain ⟨hsys, hsub, -, -⟩ := phase
    exact finishTune_fieldInv h hsys hsub

theorem effect_keeps_fieldInv (h : FieldInv s) (e : Effect s t) : FieldInv t := by
  cases e with
  | responds bus st ws =>
    have hu := activeConsistent_of_busOnly h.active bus
    exact .of_ended rfl hu
  | faults x => exact .of_ended rfl h.active
  | sleeps => exact .of_ended rfl (activeConsistent_of_sleep rfl)
  | begins start => exact begins_fieldInv h.active start
  | advances hr bus hrep ts => exact advance_fieldInv h hr bus hrep ts
  | endsSequence hr => exact afterSequence_fieldInv h.active (h.running _ hr)

/-! ### The lock, the response and the fault record -/

theorem effect_resp_of_running (e : Effect s t) (hr : t.run.isSome = true) : t.resp = s.resp := by
  obtain ⟨r', hr'⟩ := Option.isSome_iff_exists.mp hr
  cases e with
  | responds | faults | sleeps => cases hr
  | begins start => cases start <;> rfl
  | advances _ bus _ _ => exact bus.resp
  | endsSequence _ => exact (afterSequence_continues _ s r' hr').1

theorem FieldInv.of_blockInv (h : BlockInv s) : FieldInv s :=
  ⟨h.active, fun r hr => ⟨h.phase r hr, h.freqw r hr, h.bracket r hr⟩⟩

/-- An instruction that runs in a state with the lock held, no response and no fault leaves the whole invariant met. -/
theorem effect_blockInv (h : FieldInv s) (hfault : s.faultReason = none) (hlock : s.lock = .held) (hresp : s.resp = none)
    (e : Effect s t) : BlockInv t := by
  have fields := effect_keeps_fieldInv h e
  have pending : t.run.isSome = true → t.resp = none := fun hr => (effect_resp_of_running e hr).trans hresp
  have faulted : t.faultReason.isSome = true → t.run = none ∧ t.resp = none := by
    obtain ⟨-, -, hf⟩ | ⟨-, -, hf, -⟩ | ⟨hr, -, -, hresp', -⟩ := e.frame.ends
    · simp [hf, hfault]
    · simp [hf, hfault]
    · exact fun _ => ⟨hr, hresp'⟩
  have lock : LockConsistent t := by
    unfold LockConsistent
    obtain ⟨hr, hl, -⟩ | ⟨hr, hl, hf, -⟩ | ⟨-, hl, hf, -⟩ := e.frame.ends
    · simp [hr, hl, hlock]
    · simp [hr, hl, hf, hfault]
    · simp [hl, hf]
  exact {
    active := fields.active
    phase := fun r hr => (fields.running r hr).phase
    freqw := fun r hr => (fields.running r hr).freqw
    bracket := fun r hr => (fields.running r hr).bracket
    pending, faulted, lock }

/-- Settles O48: a running sequence holds the lock and has not responded, and so has a command just taken from the port; then
by what each effect leaves. -/
theorem stepKeepsBlockInvariant : Obligations.StepKeepsBlockInvariant := by
  intro s t h hstep
  obtain rfl | ⟨r, hr, hfault, e⟩ | ⟨rest, hr, hfault, e⟩ := step_effect hstep
  · exact h
  · have running : s.run.isSome = true := by simp [hr]
    exact effect_blockInv (.of_blockInv h) hfault (h.lock.mpr (.inl running)) (h.pending running) e
  · have taken : FieldInv (takeCommand rest s) := .of_ended hr h.active
    exact effect_blockInv taken hfault rfl rfl e

end Sys2Proof.Proofs
end

section
/-! The invariant of requests (R39, R42, R255, R257). -/

namespace Sys2Proof.Proofs

open Sys2Proof.Machine

/-- The values of TUNED_BW that R42 lists. -/
def LegalTunedBw (bw : BitVec 4) : Prop := bw = 0 ∨ bw = 6 ∨ bw = 7 ∨ bw = 8

/-- What `RequestInv` asks of a running command: a tune's request has passed its validation (R257), and BWSEL is the one
R255 sets for the request, not valid where there is none. -/
structure ServesRequest (c : Config) (r : Run) : Prop where
  noRequest : r.phase.request = none → r.bwsel = none
  fits : ∀ req, r.phase.request = some req → requestFits c req.target req.bw req.freq = true
  bwsel : ∀ req, r.phase.request = some req → r.bwsel = requestBwsel req.target req.bw

variable {s t : State}

theorem requestInv_iff :
    RequestInv s ↔ LegalTunedBw s.tunedBw ∧ ∀ r, s.run = some r → ServesRequest s.cfg r := by
  constructor
  · rintro ⟨htuned, hrun⟩
    refine ⟨htuned, fun r hr => ?_⟩
    have h := hrun r hr
    cases hreq : r.phase.request with
    | none => rw [hreq] at h; exact ⟨fun _ => h, by simp [hreq], by simp [hreq]⟩
    | some req => rw [hreq] at h; exact ⟨by simp [hreq], by simpa [hreq] using h.1, by simpa [hreq] using h.2⟩
  · rintro ⟨htuned, hrun⟩
    refine ⟨htuned, fun r hr => ?_⟩
    have h := hrun r hr
    split
    next hreq => exact h.noRequest hreq
    next req hreq => exact ⟨h.fits req hreq, h.bwsel req hreq⟩

theorem ServesRequest.congr {c : Config} {r r' : Run} (h : ServesRequest c r) (hreq : r'.phase.request = r.phase.request)
    (hb : r'.bwsel = r.bwsel) : ServesRequest c r' :=
  ⟨fun e => hb.trans (h.noRequest (hreq.symm.trans e)), fun req e => h.fits req (hreq.symm.trans e),
    fun req e => hb.trans (h.bwsel req (hreq.symm.trans e))⟩

theorem ServesRequest.of_request {c : Config} {r : Run} {req : TuneReq} (hreq : r.phase.request = some req)
    (fits : requestFits c req.target req.bw req.freq = true) (hb : r.bwsel = requestBwsel req.target req.bw) :
    ServesRequest c r :=
  ⟨by simp [hreq], by simpa [hreq] using fits, by simpa [hreq] using hb⟩

theorem ServesRequest.of_none {c : Config} {r : Run} (hreq : r.phase.request = none) (hb : r.bwsel = none) :
    ServesRequest c r :=
  ⟨fun _ => hb, by simp [hreq], by simp [hreq]⟩

/-- R257 lets a terrestrial tune through with 6, 7 or 8 MHz only. -/
theorem legalTunedBw_of_bandwidth {bw : BitVec 4} (h : (bandwidthOf bw).isSome = true) : LegalTunedBw bw := by
  revert bw
  unfold LegalTunedBw
  decide

theorem latchTuned_legal {c : Config} {req : TuneReq} (fits : requestFits c req.target req.bw req.freq = true)
    (u : State) : LegalTunedBw (latchTuned req u).tunedBw := by
  rw [latchTuned_tunedBw]
  split
  next htarget =>
    simp only [htarget, requestFits, Bool.and_eq_true] at fits
    exact legalTunedBw_of_bandwidth fits.1
  next => exact .inl rfl

/-! ### The effects -/

theorem enterTuner_tunedBw (r : Run) (req : TuneReq) (s : State) : (enterTuner r req s).tunedBw = s.tunedBw := by
  obtain ⟨u, bus, e⟩ | ⟨u, bus, -, ⟨-, e⟩ | ⟨-, e⟩⟩ := enterTuner_cases r req s <;> rw [e] <;> exact bus.tunedBw

/-- TUNED_BW is written by the latch of a validated tune and by nothing else (R259). -/
theorem afterSequence_legal {r : Run} (h : LegalTunedBw s.tunedBw) (hr : ServesRequest s.cfg r) :
    LegalTunedBw (afterSequence r s).tunedBw := by
  unfold afterSequence
  split
  next =>
    obtain ⟨u, bus, e⟩ | ⟨u, bus, -, e⟩ := enterColdboot_cases r s <;> rw [e] <;> exact bus.tunedBw ▸ h
  next =>
    obtain ⟨u, bus, e⟩ | ⟨u, bus, -, e⟩ := finishInit_cases s <;> rw [e] <;> exact bus.tunedBw ▸ h
  next => exact h
  next => exact h
  next => rw [enterTuner_tunedBw]; exact h
  next => rw [enterTuner_tunedBw]; exact h
  next => exact h
  next => exact h
  next req hp =>
    have fits := hr.fits req (by rw [hp]; rfl)
    obtain ⟨u, bus, e⟩ | ⟨u, -, -, e⟩ := finishTune_cases req s <;> rw [e]
    · exact bus.tunedBw ▸ h
    · split <;> exact latchTuned_legal fits u

theorem effect_keeps_legal (h : LegalTunedBw s.tunedBw) (hrun : ∀ r, s.run = some r → ServesRequest s.cfg r)
    (e : Effect s t) : LegalTunedBw t.tunedBw := by
  cases e with
  | responds bus st ws => exact bus.tunedBw ▸ h
  | faults | sleeps => exact h
  | begins start => cases start <;> exact h
  | advances _ bus _ _ => exact bus.tunedBw ▸ h
  | endsSequence hr => exact afterSequence_legal h (hrun _ hr)

theorem begins_serves {p : Phase} {b : Option Bandwidth} {u : State} (start : Begins s p b u) (f : Option (BitVec 24))
    (ts : Option TsTuple) : ServesRequest s.cfg { phase := p, index := 0, freqw := f, bwsel := b, tstuple := ts } := by
  cases start with
  | init => exact .of_none rfl rfl
  | sleep => exact .of_none rfl rfl
  | sameSystem fits => exact .of_request rfl fits rfl
  | otherSystem fits => exact .of_request rfl fits rfl
  | fromSleep fits => exact .of_request rfl fits rfl

theorem effect_keeps_serves (hrun : ∀ r, s.run = some r → ServesRequest s.cfg r) (e : Effect s t) :
    ∀ r, t.run = some r → ServesRequest t.cfg r := by
  rw [e.frame.cfg]
  intro r' hr'
  cases e with
  | responds | faults | sleeps => cases hr'
  | begins start => cases hr'; exact begins_serves start _ _
  | advances hr => cases hr'; exact (hrun _ hr).congr rfl rfl
  | endsSequence hr =>
    obtain ⟨-, hreq, hb⟩ := afterSequence_continues _ s r' hr'
    exact (hrun _ hr).congr hreq hb

theorem effect_keeps_requestInv (h : RequestInv s) (e : Effect s t) : RequestInv t := by
  obtain ⟨htuned, hrun⟩ := requestInv_iff.mp h
  exact requestInv_iff.mpr ⟨effect_keeps_legal htuned hrun e, effect_keeps_serves hrun e⟩

theorem takeCommand_requestInv (rest : List Command) (h : RequestInv s) : RequestInv (takeCommand rest s) :=
  ⟨h.tunedBw, h.bwsel⟩

/-- Settles O49, by what each effect leaves. -/
theorem stepKeepsRequestInvariant : Obligations.StepKeepsRequestInvariant := by
  intro s t h hstep
  obtain rfl | ⟨r, -, -, e⟩ | ⟨rest, -, -, e⟩ := step_effect hstep
  · exact h
  · exact effect_keeps_requestInv h e
  · exact effect_keeps_requestInv (takeCommand_requestInv rest h) e

end Sys2Proof.Proofs
end

section
/-! Reset (R45, R360, R361): the fields after attach, and the invariants there. -/

namespace Sys2Proof.Proofs

open Sys2Proof.Machine

/-- Settles O9, field by field. -/
theorem resetValues : Obligations.ResetValues := by
  refine ⟨fun c => ?_, Config.attached, State.reset_eq_attach⟩
  simp [State.faulted]

theorem attach_blockInv (c : Config) : BlockInv (State.attach c) where
  active := activeConsistent_of_ne (by simp)
  phase := by simp
  freqw := by simp
  bracket := by simp
  pending := by simp
  faulted := by simp
  lock := by simp [LockConsistent]

theorem attach_requestInv (c : Config) : RequestInv (State.attach c) :=
  requestInv_iff.mpr ⟨.inl rfl, by simp⟩

/-- Settles O50: both invariants hold after attach with any configuration, and reset is attach with an accepted one. -/
theorem resetMeetsInvariants : Obligations.ResetMeetsInvariants := by
  unfold Obligations.ResetMeetsInvariants
  rw [State.reset_eq_attach]
  exact ⟨attach_blockInv _, attach_requestInv _, Config.attached, configWf_attached, rfl⟩

end Sys2Proof.Proofs
end

section
/-! Several instances on one bus (R76, R348): the invariant of a shared context, and exclusion by the bus lock. -/

namespace Sys2Proof.Proofs

open Sys2Proof.Machine Sys2Proof.Claims

/-! ### The lock across one step -/

section Lock

variable {s t : State}

/-- An instruction that runs with the lock held leaves the lock's rule met, and the lock held or free. -/
theorem execFrame_lockConsistent (e : ExecFrame s t) (hlock : s.lock = .held) (hfault : s.faultReason = none) :
    LockConsistent t ∧ t.lock ≠ .other := by
  unfold LockConsistent
  obtain ⟨hr, hl, -⟩ | ⟨hr, hl, hf, -⟩ | ⟨-, hl, hf, -⟩ := e.ends
  · simp [hr, hl, hlock]
  · simp [hr, hl, hf, hfault]
  · simp [hl, hf]

/-- Where the lock's rule is met, a step waits, or no other instance has the lock before the step or after it (R348). -/
theorem step_waits_or_keeps_lockConsistent (hs : LockConsistent s) (h : step s = .next t) :
    t = s ∨ (s.lock ≠ .other ∧ LockConsistent t ∧ t.lock ≠ .other) := by
  obtain ⟨hfault, -, entry | idle | command⟩ := step_cases h
  · obtain ⟨_, _, _, hr, -, -, he⟩ := entry
    have held : s.lock = .held := hs.mpr (.inl (by simp [hr]))
    exact .inr ⟨by simp [held], execFrame_lockConsistent (exec_frame he) held hfault⟩
  · obtain ⟨-, rfl, -⟩ := idle
    exact .inl rfl
  · obtain ⟨_, rest, -, hother, -, illegal | legal⟩ := command
    · obtain ⟨_, -, rfl⟩ := illegal
      exact .inr ⟨hother, execFrame_lockConsistent (raiseIllegal_frame (takeCommand rest s)) rfl hfault⟩
    · obtain ⟨_, -, he⟩ := legal
      exact .inr ⟨hother, execFrame_lockConsistent (exec_frame he) rfl hfault⟩

end Lock

/-! ### The lock and its owner -/

variable {b b' c : SharedBus} {j k n : Nat} {l : BusLock} {s t : State}

theorem lockSeenBy_eq_other : b.lockSeenBy k = .other ↔ ∃ j, b.owner = some j ∧ j ≠ k := by
  unfold SharedBus.lockSeenBy
  cases b.owner with
  | none => simp
  | some j => by_cases h : j = k <;> simp [h]

/-- An instance that leaves the lock as it saw it leaves its owner. -/
theorem ownerAfter_lockSeenBy (b : SharedBus) (k : Nat) : b.ownerAfter k (b.lockSeenBy k) = b.owner := by
  unfold SharedBus.lockSeenBy
  cases ho : b.owner with
  | none => rfl
  | some j => by_cases h : j = k <;> simp [h, ho, SharedBus.ownerAfter]

theorem ownerAfter_eq_some (hl : l ≠ .other) : b.ownerAfter k l = some n ↔ l = .held ∧ n = k := by
  cases l with
  | free => simp [SharedBus.ownerAfter]
  | held => simp [SharedBus.ownerAfter, eq_comm]
  | other => exact absurd rfl hl

/-- In a shared context that meets its invariant, each instance moves from a state that meets the lock's rule. -/
theorem seenBy_lockConsistent (h : ContextInv b) (hs : b.instanceAt k = some s) : LockConsistent (b.seenBy k s) :=
  SharedBus.lockSeenBy_held.trans (h.owner k s hs)

/-! ### Contexts that differ in nothing of an instance's own -/

@[simp] theorem ownPart_run (c : Config) (s : State) : (ownPart c s).run = s.run := rfl
@[simp] theorem ownPart_faultReason (c : Config) (s : State) : (ownPart c s).faultReason = s.faultReason := rfl
@[simp] theorem ownPart_seenBy (c : Config) (b : SharedBus) (k : Nat) (s : State) :
    ownPart c (b.seenBy k s) = ownPart c s := rfl

/-- Nothing of the bus, and nothing of any instance's own state, changed. -/
structure Undisturbed (b b' : SharedBus) : Prop where
  cfg : b'.cfg = b.cfg
  length : b'.instances.length = b.instances.length
  owner : b'.owner = b.owner
  draws : b'.draws = b.draws
  busHistory : b'.busHistory = b.busHistory
  own : ∀ n, (b'.instanceAt n).map (ownPart b.cfg) = (b.instanceAt n).map (ownPart b.cfg)

theorem Undisturbed.refl (b : SharedBus) : Undisturbed b b := ⟨rfl, rfl, rfl, rfl, rfl, fun _ => rfl⟩

/-- The invariant reads an instance's own state only. -/
theorem Undisturbed.contextInv (h : ContextInv b) (u : Undisturbed b b') : ContextInv b' where
  live := by
    obtain ⟨k, s, hs⟩ := h.live
    have own := u.own k
    rw [hs, Option.map_some, Option.map_eq_some_iff] at own
    obtain ⟨t, ht, -⟩ := own
    exact ⟨k, t, ht⟩
  attached k hk := u.length ▸ h.attached k (u.owner ▸ hk)
  owner n t ht := by
    have own := u.own n
    rw [ht, Option.map_some, eq_comm, Option.map_eq_some_iff] at own
    obtain ⟨s, hs, e⟩ := own
    have hrun : s.run = t.run := by simpa using congrArg State.run e
    have hfault : s.faultReason = t.faultReason := by simpa using congrArg State.faultReason e
    rw [u.owner, ← hrun, ← hfault]
    exact h.owner n s hs

/-! ### A move -/

/-- Instance `k` acts: no other instance has the lock when it moves, and it leaves the lock held or free by the lock's
rule. -/
structure Acts (b : SharedBus) (k : Nat) (b' : SharedBus) (t : State) : Prop where
  present : k < b.instances.length
  instances : b'.instances = b.instances.set k (some t)
  owner : b'.owner = b.ownerAfter k t.lock
  ownerBefore : ∀ n, b.owner = some n → n = k
  lock : LockConsistent t
  lockAfter : t.lock ≠ .other

/-- A move changes nothing, or its instance acts (R348). -/
theorem move_undisturbed_or_acts (h : ContextInv b) (hm : b.move k = .next b') :
    Undisturbed b b' ∨ ∃ t, Acts b k b' t := by
  obtain ⟨-, rfl⟩ | ⟨s, t, hs, hstep, rfl⟩ := SharedBus.move_cases hm
  · exact .inl (.refl _)
  · have present := SharedBus.instanceAt_lt hs
    obtain rfl | ⟨hother, lock, lockAfter⟩ :=
      step_waits_or_keeps_lockConsistent (seenBy_lockConsistent h hs) hstep
    · refine .inl ⟨rfl, List.length_set, ownerAfter_lockSeenBy b k, rfl, by simp, fun n => ?_⟩
      rw [SharedBus.instanceAt_set rfl present]
      split
      · next e => simp [e, hs]
      · rfl
    · have ownerBefore : ∀ n, b.owner = some n → n = k := fun n hn =>
        by_contra fun hne => hother (lockSeenBy_eq_other.mpr ⟨n, hn, hne⟩)
      exact .inr ⟨t, present, rfl, rfl, ownerBefore, lock, lockAfter⟩

/-- The acting instance's lock follows its own rule; no other instance holds the lock before or after. -/
theorem Acts.contextInv (h : ContextInv b) (a : Acts b k b' t) : ContextInv b' := by
  have instances := SharedBus.instanceAt_set a.instances a.present
  have holder : ∀ n, b'.owner = some n ↔ t.lock = .held ∧ n = k := fun n => by
    rw [a.owner, ownerAfter_eq_some a.lockAfter]
  refine ⟨⟨k, t, by simp [instances]⟩, fun n hn => ?_, fun n u hu => ?_⟩
  · rw [((holder n).mp hn).2, a.instances, List.length_set]
    exact a.present
  · rw [instances] at hu
    split at hu
    · next e =>
      cases hu
      rw [holder, and_iff_left e]
      exact a.lock
    · next hne =>
      have notAfter : b'.owner ≠ some n := fun e => hne ((holder n).mp e).2
      have notBefore : b.owner ≠ some n := fun e => hne (a.ownerBefore n e)
      exact (iff_false_left notAfter).mpr ((iff_false_left notBefore).mp (h.owner n u hu))

/-- While one instance holds the lock, a move of another changes nothing (R76). -/
theorem move_undisturbed_of_other_owner (h : ContextInv b) (ho : b.owner = some j) (hk : k ≠ j)
    (hm : b.move k = .next b') : Undisturbed b b' := by
  obtain u | ⟨t, a⟩ := move_undisturbed_or_acts h hm
  · exact u
  · exact absurd (a.ownerBefore j ho).symm hk

/-! ### What becomes of a context -/

/-- The context goes on: it meets its invariant, has its configuration, and its bus history was only extended. -/
structure GoesOn (b b' : SharedBus) : Prop where
  inv : ContextInv b'
  cfg : b'.cfg = b.cfg
  busHistory : b.busHistory <+: b'.busHistory

theorem GoesOn.refl (h : ContextInv b) : GoesOn b b := ⟨h, rfl, List.prefix_rfl⟩

theorem GoesOn.trans (h : GoesOn b b') (k : GoesOn b' c) : GoesOn b c :=
  ⟨k.inv, k.cfg.trans h.cfg, h.busHistory.trans k.busHistory⟩

theorem move_goesOn (h : ContextInv b) (hm : b.move k = .next b') : GoesOn b b' := by
  have inv : ContextInv b' := by
    obtain u | ⟨t, a⟩ := move_undisturbed_or_acts h hm
    · exact u.contextInv h
    · exact a.contextInv h
  obtain ⟨-, rfl⟩ | ⟨_, _, -, -, rfl⟩ := SharedBus.move_cases hm
  · exact .refl h
  · exact ⟨inv, rfl, List.prefix_append _ _⟩

/-- The new instance runs nothing and is not faulted, and the lock's holder has attached before it (R361). -/
theorem join_goesOn (h : ContextInv b) : GoesOn b b.join := by
  have length : b.join.instances.length = b.instances.length + 1 := by simp [SharedBus.join]
  refine ⟨⟨?_, fun k hk => ?_, fun n u hu => ?_⟩, rfl, List.prefix_rfl⟩
  · exact ⟨b.instances.length, State.attach b.cfg, by simp [SharedBus.join_instanceAt]⟩
  · exact length ▸ Nat.lt_succ_of_lt (h.attached k hk)
  · rw [SharedBus.join_instanceAt] at hu
    split at hu
    · next e =>
      cases hu
      have notOwner : b.owner ≠ some n := fun ho => Nat.ne_of_lt (h.attached n ho) e
      exact (iff_false_left notOwner).mpr (by simp)
    · exact h.owner n u hu

/-- An instance that detaches runs nothing, and those that stay keep their numbers and states (R345, R348). -/
theorem detach_goesOn (h : ContextInv b) (hd : b.detach k = some b') : GoesOn b b' := by
  obtain rfl | ⟨s, hs, -, rfl, live⟩ := SharedBus.detach_cases hd
  · exact .refl h
  · refine ⟨⟨live, fun n hn => ?_, fun n u hu => ?_⟩, rfl, List.prefix_rfl⟩
    · simpa using h.attached n hn
    · rw [SharedBus.instanceAt_set rfl (SharedBus.instanceAt_lt hs)] at hu
      split at hu
      · cases hu
      · exact h.owner n u hu

theorem reaches_goesOn (hr : SharedBus.Reaches b b') (h : ContextInv b) : GoesOn b b' := by
  induction hr with
  | refl => exact .refl h
  | move _ _ hm ih => exact ih.trans (move_goesOn ih.inv hm)
  | join _ ih => exact ih.trans (join_goesOn ih.inv)
  | detach _ _ hd ih => exact ih.trans (detach_goesOn ih.inv hd)

/-- A new context has one instance, which runs nothing and is not faulted, and nobody holds the lock (R361). -/
theorem create_contextInv (cfg : Config) :
    ContextInv { cfg, instances := [some (State.attach cfg)], owner := none, draws := 0, busHistory := [] } where
  live := ⟨0, _, rfl⟩
  attached := nofun
  owner n u hu := by
    obtain ⟨hn, e⟩ := List.getElem?_eq_some_iff.mp (SharedBus.instanceAt_iff.mp hu)
    obtain rfl : State.attach cfg = u := by simpa using e
    simp

/-- Settles O59: a new context meets the invariant; it goes on along every action; and a move under another's lock waits. -/
theorem lockedBusExcludesOthers : Obligations.LockedBusExcludesOthers := by
  refine ⟨fun cfg b h => ?_, fun b b' h hr => ?_, fun b b' j k h ho hk hm => ?_⟩
  · obtain ⟨-, rfl⟩ := (SharedBus.create_eq_next cfg b).mp h
    exact ⟨create_contextInv cfg, rfl, rfl⟩
  · obtain ⟨inv, hcfg, es, he⟩ := reaches_goesOn hr h
    exact ⟨inv, hcfg, es, he.symm⟩
  · have u := move_undisturbed_of_other_owner h ho hk hm
    exact ⟨u.busHistory, u.owner.trans ho, u.draws, u.own⟩

end Sys2Proof.Proofs
end

section
/-! The decoder's command formats and entry kinds (R92, R100, R103 to R105), each said once as what it accepts, and the two
round trips with the encoder. -/

namespace Sys2Proof.Proofs

/-! ### Packed words -/

theorem eq_append_iff {m n : Nat} {x : BitVec (m + n)} {hi : BitVec m} {lo : BitVec n} :
    x = hi ++ lo ↔ x.extractLsb' n m = hi ∧ x.extractLsb' 0 n = lo := by
  constructor
  · rintro rfl
    exact ⟨BitVec.extractLsb'_append_eq_left, BitVec.extractLsb'_append_eq_right⟩
  · rintro ⟨rfl, rfl⟩
    exact BitVec.extractLsb'_append_extractLsb'.symm

/-- A field of a field is a field of the word. -/
theorem extractLsb'_extractLsb' {w start len start' len' : Nat} (x : BitVec w) (h : start' + len' ≤ len) :
    (x.extractLsb' start len).extractLsb' start' len' = x.extractLsb' (start + start') len' := by
  ext k hk
  simp [Nat.add_assoc, show start' + k < len by omega]

@[simp] theorem bit_ofBit : ∀ b : BitVec 1, (Target.ofBit b).bit = b := by decide

theorem eq_bit_iff {b : BitVec 1} {tgt : Target} : b = tgt.bit ↔ Target.ofBit b = tgt :=
  ⟨fun h => by simp [h], fun h => by simp [← h]⟩

/-- The operand word of format CR is its four bytes (R92). -/
theorem eq_crOperand_iff {w : Word} {bank reg val mask : Byte} :
    w = crOperand bank reg val mask ↔ w.extractLsb' 24 8 = bank ∧ w.extractLsb' 16 8 = reg ∧
      w.extractLsb' 8 8 = val ∧ w.extractLsb' 0 8 = mask := by
  simp only [crOperand, eq_append_iff (m := 24) (n := 8), eq_append_iff (m := 16) (n := 8),
    eq_append_iff (m := 8) (n := 8)]
  simp [extractLsb'_extractLsb', and_assoc]

/-! ### Command formats -/

section Formats

variable {low : BitVec 24} {ops : List Word} {i : Instr}

theorem parseCN_eq_ok {j : Instr} : parseCN low ops j = .ok i ↔ low = 0 ∧ ops = [] ∧ j = i := by
  unfold parseCN
  split
  · simp_all
  · split <;> simp_all

theorem parseCX_eq_ok {mk : Word → Instr} :
    parseCX low ops mk = .ok i ↔ ∃ x, low = 0 ∧ ops = [x] ∧ mk x = i := by
  unfold parseCX
  split
  · simp_all
  · split <;> simp_all

theorem parseCW_eq_ok {mk : BitVec 6 → Word → Instr} :
    parseCW low ops mk = .ok i ↔ ∃ w v, low = (0 : BitVec 18) ++ w ∧ ops = [v] ∧ mk w v = i := by
  simp only [eq_append_iff (m := 18) (n := 6)]
  unfold parseCW
  split
  · simp_all
  · split <;> simp_all

theorem parseCI_eq_ok {mk : Byte → Word → Instr} :
    parseCI low ops mk = .ok i ↔ ∃ id v, low = (0 : BitVec 16) ++ id ∧ ops = [v] ∧ mk id v = i := by
  simp only [eq_append_iff (m := 16) (n := 8)]
  unfold parseCI
  split
  · simp_all
  · split <;> simp_all

theorem parseCXX_eq_ok {mk : Word → Word → Instr} :
    parseCXX low ops mk = .ok i ↔ ∃ a b, low = 0 ∧ ops = [a, b] ∧ mk a b = i := by
  unfold parseCXX
  split
  · simp_all
  · split <;> simp_all

theorem parseCR_eq_ok {mk : Target → Byte → Byte → Byte → Byte → Except DecodeError Instr} :
    parseCR low ops mk = .ok i ↔ ∃ tgt bank reg val mask,
      low = (0 : BitVec 23) ++ tgt.bit ∧ ops = [crOperand bank reg val mask] ∧ mk tgt bank reg val mask = .ok i := by
  simp only [eq_append_iff (m := 23) (n := 1), eq_bit_iff]
  unfold parseCR
  split
  · simp_all
  · split
    · simp_all [eq_crOperand_iff]
    · simp_all

theorem parseCS_eq_ok {mk : BitVec 3 → Word → Word → Instr} :
    parseCS low ops mk = .ok i ↔ ∃ sys c r, low = (0 : BitVec 21) ++ sys ∧ ops = [c, r] ∧ mk sys c r = i := by
  simp only [eq_append_iff (m := 21) (n := 3)]
  unfold parseCS
  split
  · simp_all
  · split <;> simp_all

theorem parseCF_eq_ok {mk : BitVec 3 → BitVec 4 → Word → Word → Instr} :
    parseCF low ops mk = .ok i ↔ ∃ sys bw f sid,
      low = (0 : BitVec 12) ++ bw ++ (0 : BitVec 5) ++ sys ∧ ops = [f, sid] ∧ mk sys bw f sid = i := by
  simp only [eq_append_iff (m := 21) (n := 3), eq_append_iff (m := 16) (n := 5), eq_append_iff (m := 12) (n := 4)]
  unfold parseCF
  split
  next h => rcases h with h | h <;> simp_all [extractLsb'_extractLsb']
  · split <;> simp_all [extractLsb'_extractLsb']

end Formats

theorem mkSetBits_eq_ok {tgt : Target} {bank reg val mask : Byte} {i : Instr} :
    mkSetBits tgt bank reg val mask = .ok i ↔ bank = 0 ∧ .setBits tgt reg val mask = i := by
  unfold mkSetBits
  split <;> simp_all

/-! ### Commands (R91, R100) -/

@[simp] theorem decode_commandWord (opc : Byte) (low : BitVec 24) (ops : List Word) :
    decode (.command (commandWord opc low) ops) = decodeOpcode opc low ops := by
  simp [decode, decodeCommand]

theorem decode_command_of {opc : Byte} {low : BitVec 24} {ops : List Word} {i : Instr}
    (h : decodeOpcode opc low ops = .ok i) : decode (.command (commandWord opc low) ops) = .ok i :=
  (decode_commandWord ..).trans h

/-- Each opcode's format accepts the words that the encoder writes for its instruction, and no others (R100, R102). -/
theorem encode_of_decodeOpcode {opc : Byte} {low : BitVec 24} {ops : List Word} {i : Instr}
    (h : decodeOpcode opc low ops = .ok i) : encode i = .command (commandWord opc low) ops := by
  unfold decodeOpcode at h
  rw [show opc = BitVec.ofNat 8 opc.toNat by simp]
  generalize opc.toNat = n at h ⊢
  split at h
  · obtain ⟨x, rfl, rfl, rfl⟩ := parseCX_eq_ok.mp h; rfl
  · obtain ⟨x, rfl, rfl, rfl⟩ := parseCX_eq_ok.mp h; rfl
  · obtain ⟨w, v, rfl, rfl, rfl⟩ := parseCW_eq_ok.mp h; rfl
  · obtain ⟨id, q, rfl, rfl, rfl⟩ := parseCI_eq_ok.mp h; rfl
  · obtain ⟨id, v, rfl, rfl, rfl⟩ := parseCI_eq_ok.mp h; rfl
  · obtain ⟨e, w, rfl, rfl, rfl⟩ := parseCXX_eq_ok.mp h; rfl
  · obtain ⟨agc, f, rfl, rfl, rfl⟩ := parseCXX_eq_ok.mp h; rfl
  · obtain ⟨agc, rfl, rfl, rfl⟩ := parseCX_eq_ok.mp h; rfl
  · obtain ⟨snr, rfl, rfl, rfl⟩ := parseCX_eq_ok.mp h; rfl
  · obtain ⟨sys, code, rate, rfl, rfl, rfl⟩ := parseCS_eq_ok.mp h; rfl
  · obtain ⟨tgt, bank, reg, val, mask, rfl, rfl, hmk⟩ := parseCR_eq_ok.mp h
    obtain ⟨rfl, rfl⟩ := mkSetBits_eq_ok.mp hmk
    rfl
  · obtain ⟨tgt, bank, reg, val, mask, rfl, rfl, hmk⟩ := parseCR_eq_ok.mp h
    cases hmk
    rfl
  · obtain ⟨rfl, rfl, rfl⟩ := parseCN_eq_ok.mp h; rfl
  · obtain ⟨rfl, rfl, rfl⟩ := parseCN_eq_ok.mp h; rfl
  · obtain ⟨sys, bw, freq, sid, rfl, rfl, rfl⟩ := parseCF_eq_ok.mp h; rfl
  · obtain ⟨rfl, rfl, rfl⟩ := parseCN_eq_ok.mp h; rfl
  · obtain ⟨rfl, rfl, rfl⟩ := parseCN_eq_ok.mp h; rfl
  · cases h

/-! ### ROM entries (R103 to R105) -/

@[simp] theorem decode_toWord (f : EntryFields) : decode (.romEntry f.toWord) = f.decode := by
  simp [decode, decodeEntry]

/-- An argument of one byte: ARG[15:8] is 0 and ARG[7:0] the byte (R104). -/
@[simp] theorem byteArg_high (c : Byte) : (0#8 ++ c : BitVec 16).extractLsb' 8 8 = 0#8 :=
  BitVec.extractLsb'_append_eq_left

@[simp] theorem byteArg_low (c : Byte) : (0#8 ++ c : BitVec 16).extractLsb' 0 8 = c :=
  BitVec.extractLsb'_append_eq_right

theorem code_of_ofCode {c : Byte} {src : Source} (h : Source.ofCode c = some src) : src.code = c := by
  have all : ∀ c : Byte, ∀ s ∈ Source.ofCode c, s.code = c := by decide
  exact all c src h

section Entries

variable {f : EntryFields} {i : Instr}

/-- An entry without reserved bits makes the access whose fields it has (R103, R104). -/
theorem access_eq_ok {a : Access} (hHi : f.reservedHi = 0) (hLo : f.reservedLo = 0) :
    f.access = .ok a ↔ f = a.fields f.kind f.val f.arg := by
  obtain ⟨kind, hi, b, tgt, bank, reg, val, mask, lo, arg⟩ := f
  obtain ⟨abank, atgt, areg, amask⟩ := a
  simp only at hHi hLo
  subst hHi hLo
  simp only [EntryFields.access, Access.fields, EntryFields.mk.injEq, eq_bit_iff]
  rcases BitVec.eq_zero_or_eq_one b with rfl | rfl
  · cases abank <;> by_cases h : bank = 0#8 <;> simp [h]
  · cases abank <;> simp [and_left_comm]

section

variable (a : Access) (kind : BitVec 4) (val : Byte) (arg : BitVec 16)

@[simp] theorem fields_kind : (a.fields kind val arg).kind = kind := rfl
@[simp] theorem fields_reservedHi : (a.fields kind val arg).reservedHi = 0 := rfl
@[simp] theorem fields_val : (a.fields kind val arg).val = val := rfl
@[simp] theorem fields_reservedLo : (a.fields kind val arg).reservedLo = 0 := rfl
@[simp] theorem fields_arg : (a.fields kind val arg).arg = arg := rfl

end

theorem access_fields (a : Access) (kind : BitVec 4) (val : Byte) (arg : BitVec 16) :
    (a.fields kind val arg).access = .ok a :=
  (access_eq_ok rfl rfl).mpr rfl

/-- An entry without reserved bits, access fields and MASK is one that makes no access. -/
theorem eq_plainFields (hHi : f.reservedHi = 0) (hLo : f.reservedLo = 0) (ha : f.noAccess = true) (hm : f.mask = 0) :
    f = plainFields f.kind f.val f.arg := by
  obtain ⟨kind, hi, b, tgt, bank, reg, val, mask, lo, arg⟩ := f
  simp_all [EntryFields.noAccess, plainFields]

theorem encode_of_access {mk : Access → Instr} {kind : BitVec 4} {val : Byte} {arg : BitVec 16}
    (hHi : f.reservedHi = 0) (hLo : f.reservedLo = 0) (hk : f.kind = kind) (hv : f.val = val) (harg : f.arg = arg)
    (h : f.access.map mk = .ok i) (e : ∀ a, encode (mk a) = .romEntry (a.fields kind val arg).toWord) :
    encode i = .romEntry f.toWord := by
  cases ha : f.access with
  | error x => rw [ha] at h; cases h
  | ok a =>
    rw [ha] at h
    cases h
    have fields := (access_eq_ok hHi hLo).mp ha
    rw [hk, hv, harg] at fields
    rw [e, ← fields]

/-- POLLZ and RDSEL use neither VAL nor ARG (R104). -/
theorem encode_of_bareAccess {mk : Access → Instr} {kind : BitVec 4} (hHi : f.reservedHi = 0) (hLo : f.reservedLo = 0)
    (hk : f.kind = kind)
    (h : (if f.val ≠ 0 ∨ f.arg ≠ 0 then .error .unusedEntryField else f.access.map mk) = .ok i)
    (e : ∀ a, encode (mk a) = .romEntry (a.fields kind 0 0).toWord) : encode i = .romEntry f.toWord := by
  split at h
  · cases h
  next used =>
    obtain ⟨hv, harg⟩ := not_or.mp used
    exact encode_of_access hHi hLo hk (not_not.mp hv) (not_not.mp harg) h e

theorem encode_of_plain {kind : BitVec 4} {val : Byte} {arg : BitVec 16}
    (hHi : f.reservedHi = 0) (hLo : f.reservedLo = 0) (ha : f.noAccess = true) (hm : f.mask = 0)
    (hk : f.kind = kind) (hv : f.val = val) (harg : f.arg = arg)
    (e : encode i = .romEntry (plainFields kind val arg).toWord) : encode i = .romEntry f.toWord := by
  have fields := eq_plainFields hHi hLo ha hm
  rw [hk, hv, harg] at fields
  rw [e, ← fields]

/-- Each entry kind accepts the entries that the encoder writes for its instruction, and no others (R102 to R104). -/
theorem encode_of_entryDecode (h : f.decode = .ok i) : encode i = .romEntry f.toWord := by
  unfold EntryFields.decode at h
  split at h
  next => cases h
  next hres =>
    obtain ⟨hHi, hLo⟩ : f.reservedHi = 0 ∧ f.reservedLo = 0 := by simpa using hres
    have kind : f.kind = BitVec.ofNat 4 f.kind.toNat := by simp
    generalize f.kind.toNat = n at h kind
    split at h
    · -- END
      split at h <;> cases h
      next used =>
        simp only [Bool.and_eq_true, beq_iff_eq] at used
        obtain ⟨⟨⟨ha, hv⟩, hm⟩, harg⟩ := used
        exact encode_of_plain hHi hLo ha hm kind hv harg rfl
    · -- WR
      split at h
      · cases h
      next harg => exact encode_of_access hHi hLo kind rfl (not_not.mp harg) h fun _ => rfl
    · -- WRV
      split at h
      · cases h
      next used =>
        obtain ⟨hv, hhigh⟩ := not_or.mp used
        split at h
        · cases h
        next src hsrc =>
          have harg : f.arg = (0 : Byte) ++ src.code :=
            eq_append_iff.mpr ⟨not_not.mp hhigh, (code_of_ofCode hsrc).symm⟩
          exact encode_of_access hHi hLo kind (not_not.mp hv) harg h fun _ => rfl
    · -- DELAY
      split at h <;> cases h
      next used =>
        simp only [Bool.and_eq_true, beq_iff_eq] at used
        obtain ⟨⟨ha, hv⟩, hm⟩ := used
        exact encode_of_plain hHi hLo ha hm kind hv rfl rfl
    · -- POLLZ
      exact encode_of_bareAccess hHi hLo kind h fun _ => rfl
    · -- RDSEL
      exact encode_of_bareAccess hHi hLo kind h fun _ => rfl
    · -- HOOK
      split at h <;> cases h
      next used =>
        simp only [Bool.and_eq_true, beq_iff_eq] at used
        obtain ⟨⟨ha, hm⟩, hhigh⟩ := used
        have harg : f.arg = (0 : Byte) ++ f.arg.extractLsb' 0 8 := eq_append_iff.mpr ⟨hhigh, rfl⟩
        exact encode_of_plain hHi hLo ha hm kind rfl harg rfl
    · cases h

end Entries

/-! ### The two round trips -/

/-- Settles O1, instruction by instruction: its format or entry kind accepts its words. -/
theorem decodeUndoesEncode : Obligations.DecodeUndoesEncode := by
  intro i
  cases i with
  | log2 _ | log10 _ | rssiS _ | cnrT _ => exact decode_command_of (parseCX_eq_ok.mpr ⟨_, rfl, rfl, rfl⟩)
  | sext _ _ => exact decode_command_of (parseCW_eq_ok.mpr ⟨_, _, rfl, rfl, rfl⟩)
  | tlookup _ _ | pwl _ _ => exact decode_command_of (parseCI_eq_ok.mpr ⟨_, _, rfl, rfl, rfl⟩)
  | percalc _ _ | rssiT _ _ => exact decode_command_of (parseCXX_eq_ok.mpr ⟨_, _, rfl, rfl, rfl⟩)
  | cnrS _ _ _ => exact decode_command_of (parseCS_eq_ok.mpr ⟨_, _, _, rfl, rfl, rfl⟩)
  | setBits tgt reg val mask =>
    exact decode_command_of (parseCR_eq_ok.mpr ⟨tgt, 0, reg, val, mask, rfl, rfl, rfl⟩)
  | setBankedBits tgt bank reg val mask =>
    exact decode_command_of ((parseCR_eq_ok (mk := fun t b r v m => .ok (.setBankedBits t b r v m))).mpr
      ⟨tgt, bank, reg, val, mask, rfl, rfl, rfl⟩)
  | init | sleep | readStatus | getState => exact decode_command_of (parseCN_eq_ok.mpr ⟨rfl, rfl, rfl⟩)
  | setFrontend _ _ _ _ => exact decode_command_of (parseCF_eq_ok.mpr ⟨_, _, _, _, rfl, rfl, rfl⟩)
  | endSeq | delay _ => exact decode_toWord _
  | wr _ _ | pollz _ | rdsel _ => exact (decode_toWord _).trans (congrArg (Except.map _) (access_fields ..))
  | wrv a src => simp [encode, EntryFields.decode, access_fields, Except.map]
  | hook id val => simp [encode, EntryFields.decode, plainFields, EntryFields.noAccess]

/-- Settles O2, by what each opcode's format and each entry kind accepts. -/
theorem encodeUndoesDecode : Obligations.EncodeUndoesDecode := by
  intro e i h
  cases e with
  | command w0 ops => simpa using encode_of_decodeOpcode h
  | romEntry e => simpa using encode_of_entryDecode h

theorem decode_eq_ok_iff {e : Encoding} {i : Instr} : decode e = .ok i ↔ encode i = e :=
  ⟨encodeUndoesDecode e i, fun h => h ▸ decodeUndoesEncode i⟩

/-- Settles O3: each of these is the one encoding of what it stands for. -/
theorem writtenOutWordsDecode : Obligations.WrittenOutWordsDecode := by
  have command : ∀ {w0 ops i}, encode i = .command w0 ops → decodeCommand w0 ops = .ok i := decode_eq_ok_iff.mpr
  have entry : ∀ {e i}, encode i = .romEntry e → decodeEntry e = .ok i := decode_eq_ok_iff.mpr
  exact ⟨command rfl, command rfl, command rfl, command rfl, entry rfl, entry rfl, entry rfl⟩

end Sys2Proof.Proofs
end

section
/-! The responses of a command (R94, R95, R100, R330 to R335): which instruction ends it with which status and how many
result words. -/

namespace Sys2Proof.Proofs

open Sys2Proof.Machine Sys2Proof.Claims

/-- A command that decodes and is illegal all the same: R101 items 5 to 7. -/
inductive IllegalOperand (c : Config) : Instr → Prop where
  | tlookup {id : Byte} (q : Word) (h : c.cnrTables.length ≤ id.toNat) : IllegalOperand c (.tlookup id q)
  | pwl {id : Byte} (v : Word) (h : c.pwlModels.length ≤ id.toNat) : IllegalOperand c (.pwl id v)
  | cnrS {sys : BitVec 3} (code rate : Word) (h2 : sys.toNat ≠ 2) (h3 : sys.toNat ≠ 3) :
      IllegalOperand c (.cnrS sys code rate)

theorem illegalOperand_tlookup {c : Config} {id : Byte} {q : Word} :
    IllegalOperand c (.tlookup id q) ↔ c.cnrTables.length ≤ id.toNat :=
  ⟨fun | .tlookup _ h => h, .tlookup q⟩

theorem illegalOperand_pwl {c : Config} {id : Byte} {v : Word} :
    IllegalOperand c (.pwl id v) ↔ c.pwlModels.length ≤ id.toNat :=
  ⟨fun | .pwl _ h => h, .pwl v⟩

theorem illegalOperand_cnrS {c : Config} {sys : BitVec 3} {code rate : Word} :
    IllegalOperand c (.cnrS sys code rate) ↔ sys.toNat ≠ 2 ∧ sys.toNat ≠ 3 :=
  ⟨fun | .cnrS _ _ h2 h3 => ⟨h2, h3⟩, fun ⟨h2, h3⟩ => .cnrS code rate h2 h3⟩

/-- What a response that an instruction sends may be. -/
inductive ResponseOf (c : Config) : Instr → Response → Prop where
  | ok {i : Instr} {ws : List Word} (h : ws.length = resultCount i) : ResponseOf c i ⟨.ok, ws⟩
  | busError (tgt : Target) (bank : Option Byte) (reg val mask : Byte) :
      ResponseOf c (bitFieldCommand tgt bank reg val mask) ⟨.busError, []⟩
  | statusReadFails : ResponseOf c .readStatus ⟨.hardwareIoError, List.replicate 5 0⟩
  | entryFails {i : Instr} (h : i.isCommand = false) : ResponseOf c i ⟨.hardwareIoError, []⟩
  | pollFails (a : Access) : ResponseOf c (.pollz a) ⟨.tunerInitError, []⟩
  | unsupported (sys : BitVec 3) (bw : BitVec 4) (freq sid : Word) :
      ResponseOf c (.setFrontend sys bw freq sid) ⟨.unsupportedSystem, []⟩
  | illegal {i : Instr} (h : IllegalOperand c i) : ResponseOf c i ⟨.illegalCommand, []⟩

/-- Every response that stands in `t` is one that the instruction may send. -/
def Answers (c : Config) (i : Instr) (t : State) : Prop := ∀ x, t.resp = some x → ResponseOf c i x

variable {s t : State} {c : Config} {i : Instr}

theorem answers_of_none (h : t.resp = none) : Answers c i t := fun x hx => by rw [h] at hx; cases hx

theorem answers_respond {st : Status} {ws : List Word} (h : ResponseOf c i ⟨st, ws⟩) (s : State) :
    Answers c i (respond st ws s) := fun x hx => by cases hx; exact h

/-! ### Values and results -/

theorem calc_bind_eq_value {α β : Type} {c : Calc α} {f : α → Calc β} {b : β} (h : c.bind f = .value b) :
    ∃ a, f a = .value b := by
  cases c with
  | value a => exact ⟨a, h⟩
  | fault | illFormed => cases h

theorem res_bind_eq_ok {α β : Type} {r : Res α} {f : α → State → Res β} {b : β} (h : r.bind f = .ok b t) :
    ∃ a u, f a u = .ok b t := by
  cases r with
  | ok a u => exact ⟨a, u, h⟩
  | err u => cases h

theorem statusWords_length {sy : System} {ws : List Word} (h : statusWords sy s = .ok ws t) : ws.length = 5 := by
  obtain ⟨_, _, h⟩ := res_bind_eq_ok h
  obtain ⟨_, _, h⟩ := res_bind_eq_ok h
  obtain ⟨_, _, h⟩ := res_bind_eq_ok h
  obtain ⟨_, _, h⟩ := res_bind_eq_ok h
  cases h
  rfl

/-! ### Commands -/

/-- A command of one pure computation answers OK or, after a model fault, nothing. -/
theorem finish_answers {α : Type} {v : Calc α} {f : α → List Word} (hn : ∀ a, (f a).length = resultCount i)
    (h : finish (v.bind fun a => .value (f a)) s = .next t) : Answers c i t := by
  obtain ⟨ws, hv, e⟩ | ⟨x, -, e⟩ | ⟨d, -, e⟩ := finish_cases (v.bind fun a => .value (f a)) s <;>
    rw [e] at h <;> cases h
  · obtain ⟨a, ha⟩ := calc_bind_eq_value hv
    cases ha
    exact answers_respond (.ok (hn a)) s
  · exact answers_of_none rfl

theorem execTlookup_answers {id : Byte} {q : Word} (h : execTlookup id q s = .next t) :
    Answers s.cfg (.tlookup id q) t := by
  unfold execTlookup at h
  split at h
  next hid => cases h; exact answers_respond (.illegal (.tlookup q (List.getElem?_eq_none_iff.mp hid))) s
  next => exact finish_answers (fun _ => rfl) h

theorem execPwl_answers {id : Byte} {v : Word} (h : execPwl id v s = .next t) : Answers s.cfg (.pwl id v) t := by
  unfold execPwl at h
  split at h
  next hid => cases h; exact answers_respond (.illegal (.pwl v (List.getElem?_eq_none_iff.mp hid))) s
  next => exact finish_answers (fun _ => rfl) h

theorem execCnrS_answers {sys : BitVec 3} {code rate : Word} (h : execCnrS sys code rate s = .next t) :
    Answers s.cfg (.cnrS sys code rate) t := by
  unfold execCnrS at h
  split at h
  next => exact finish_answers (fun _ => rfl) h
  next => exact finish_answers (fun _ => rfl) h
  next h2 h3 => cases h; exact answers_respond (.illegal (.cnrS code rate h2 h3)) s

@[simp] theorem resultCount_bitFieldCommand (tgt : Target) (bank : Option Byte) (reg val mask : Byte) :
    resultCount (bitFieldCommand tgt bank reg val mask) = 0 := by cases bank <;> rfl

/-- A bit-field command answers OK or BUS_ERROR (R331). -/
theorem finishBits_answers (tgt : Target) (bank : Option Byte) (reg val mask : Byte) (r : Res Unit) :
    Answers c (bitFieldCommand tgt bank reg val mask) (finishBits r) := by
  obtain ⟨-, e⟩ | ⟨-, e⟩ := finishBits_cases r <;> rw [e]
  · exact answers_respond (.ok (by simp)) _
  · exact answers_respond (.busError ..) _

theorem execSleep_answers (hs : s.resp = none) (h : execSleep s = .next t) : Answers c .sleep t := by
  unfold execSleep at h
  split at h
  next => split at h <;> cases h; exact answers_of_none hs
  all_goals cases h; exact answers_respond (.ok rfl) _

theorem startTune_resp {sy : System} {bw : BitVec 4} {freq : Word} (h : startTune sy bw freq s = .next t) :
    t.resp = s.resp := by
  unfold startTune at h
  split at h
  next =>
    split at h
    next => cases h
    next => split at h <;> cases h <;> rfl
  all_goals cases h; rfl

theorem execSetFrontend_answers {sys : BitVec 3} {bw : BitVec 4} {freq sid : Word} (hs : s.resp = none)
    (h : execSetFrontend sys bw freq sid s = .next t) : Answers c (.setFrontend sys bw freq sid) t := by
  unfold execSetFrontend at h
  split at h
  next => cases h; exact answers_respond (.unsupported ..) s
  next =>
    split at h
    next => exact answers_of_none ((startTune_resp h).trans hs)
    next => cases h; exact answers_respond (.unsupported ..) s

theorem execReadStatus_answers (h : execReadStatus s = .next t) : Answers c .readStatus t := by
  unfold execReadStatus at h
  split at h
  next =>
    split at h
    next => cases h
    next =>
      split at h
      next hw => cases h; exact answers_respond (.ok (statusWords_length hw)) _
      next => cases h; exact answers_respond .statusReadFails _
  all_goals cases h; exact answers_respond (.ok rfl) _

/-! ### ROM entries -/

section Entries

variable (hi : i.isCommand = false)
include hi

theorem resultCount_entry : resultCount i = 0 := by
  cases i with
  | endSeq | wr | wrv | delay | pollz | rdsel | hook => rfl
  | _ => cases hi

theorem failSequence_answers (r : Run) (s : State) : Answers c i (failSequence .hardwareIoError r s) := by
  obtain ⟨u, -, e⟩ := failSequence_cases .hardwareIoError r s
  rw [e]
  exact answers_respond (.entryFails hi) u

theorem afterAccess_answers (hs : s.resp = none) (r : Run) (a : Access) (v : Byte) :
    Answers c i (afterAccess r (accessOp a v s)) := by
  obtain ⟨u, bus, e⟩ | ⟨u, -, e⟩ := afterAccess_cases _ r (accessOp_accessOnly a v s) <;> rw [e]
  · exact answers_of_none (bus.busOnly.resp.trans hs)
  · exact answers_respond (.entryFails hi) u

theorem enterTuner_answers (hs : s.resp = none) (r : Run) (req : TuneReq) : Answers c i (enterTuner r req s) := by
  obtain ⟨u, -, e⟩ | ⟨u, bus, -, ⟨-, e⟩ | ⟨-, e⟩⟩ := enterTuner_cases r req s <;> rw [e]
  · exact answers_respond (.entryFails hi) u
  · exact answers_of_none (bus.resp.trans hs)
  · exact answers_of_none (bus.resp.trans hs)

/-- The END of a sequence answers OK, HARDWARE_IO_ERROR after a failed repeater call, or not yet. -/
theorem afterSequence_answers (hs : s.resp = none) (r : Run) : Answers c i (afterSequence r s) := by
  have ok : ResponseOf c i ⟨.ok, []⟩ := .ok (resultCount_entry hi).symm
  have fails : ResponseOf c i ⟨.hardwareIoError, []⟩ := .entryFails hi
  unfold afterSequence
  split
  next =>
    obtain ⟨u, -, e⟩ | ⟨u, bus, -, e⟩ := enterColdboot_cases r s <;> rw [e]
    · exact answers_respond fails u
    · exact answers_of_none (bus.resp.trans hs)
  next =>
    obtain ⟨u, -, e⟩ | ⟨u, -, -, e⟩ := finishInit_cases s <;> rw [e]
    · exact answers_respond fails u
    · exact answers_respond ok _
  next => exact answers_respond ok _
  next => exact answers_of_none hs
  next => exact enterTuner_answers hi hs r _
  next => exact enterTuner_answers hi hs r _
  next => exact answers_of_none hs
  next => exact answers_of_none hs
  next req _ =>
    obtain ⟨u, -, e⟩ | ⟨u, -, -, e⟩ := finishTune_cases req s <;> rw [e]
    · exact answers_respond fails u
    · exact answers_respond ok _

end Entries

theorem execPollz_answers {a : Access} (hs : s.resp = none) (h : execPollz a s = .next t) :
    Answers c (.pollz a) t := by
  obtain ⟨r, -, e⟩ := inSequence_eq_next h
  cases e
  have bus := readEntry_busOnly a s
  cases hread : readEntry a s with rw [hread] at bus
  | ok b u =>
    by_cases hb : b &&& a.mask = 0
    · rw [afterPoll, if_pos hb]
      exact answers_of_none (bus.resp.trans hs)
    · obtain ⟨v, -, e⟩ := failSequence_cases .tunerInitError r u
      rw [afterPoll, if_neg hb, e]
      exact answers_respond (.pollFails a) v
  | err u => exact failSequence_answers rfl r u

theorem execRdsel_answers {a : Access} (hs : s.resp = none) (h : execRdsel a s = .next t) :
    Answers c (.rdsel a) t := by
  obtain ⟨r, -, e⟩ := inSequence_eq_next h
  have bus := readEntry_busOnly a s
  split at e
  · cases e
  · cases hread : readEntry a s with rw [hread] at bus e
    | ok b u =>
      simp only at e
      split at e <;> cases e
      exact answers_of_none (bus.resp.trans hs)
    | err u => cases e; exact failSequence_answers rfl r u

/-! ### All instructions -/

theorem exec_answers (hs : s.resp = none) (h : exec i s = .next t) : Answers s.cfg i t := by
  cases i with
  | log2 _ | log10 _ | sext _ _ | getState => cases h; exact answers_respond (.ok rfl) s
  | tlookup id q => exact execTlookup_answers h
  | pwl id v => exact execPwl_answers h
  | percalc _ _ | rssiT _ _ | rssiS _ | cnrT _ => exact finish_answers (fun _ => rfl) h
  | cnrS sys code rate => exact execCnrS_answers h
  | setBits tgt reg val mask => cases h; exact finishBits_answers tgt none reg val mask _
  | setBankedBits tgt bank reg val mask => cases h; exact finishBits_answers tgt (some bank) reg val mask _
  | init => cases h; exact answers_of_none hs
  | sleep => exact execSleep_answers hs h
  | setFrontend sys bw freq sid => exact execSetFrontend_answers hs h
  | readStatus => exact execReadStatus_answers h
  | endSeq =>
    obtain ⟨r, -, e⟩ := inSequence_eq_next h
    cases e
    exact afterSequence_answers rfl hs r
  | wr a val =>
    obtain ⟨r, -, e⟩ := inSequence_eq_next h
    cases e
    exact afterAccess_answers rfl hs r a val
  | wrv a src =>
    obtain ⟨r, -, e⟩ := inSequence_eq_next h
    split at e <;> cases e
    · exact answers_of_none rfl
    · exact afterAccess_answers rfl hs r a _
  | delay _ | hook _ _ =>
    obtain ⟨r, -, e⟩ := inSequence_eq_next h
    cases e
    exact answers_of_none hs
  | pollz a => exact execPollz_answers hs h
  | rdsel a => exact execRdsel_answers hs h

/-! ### POLLZ stands in the cold boot only (R201 item 7) -/

theorem sequenceWf_allowed {id : SeqId} {es : List RomWord} {k : Nat} {e : RomWord} (hwf : sequenceWf c id es = true)
    (he : es[k]? = some e) (hd : decodeEntry e = .ok i) : i.allowedIn id = true := by
  induction es generalizing k with
  | nil => cases he
  | cons e' rest ih =>
    unfold sequenceWf at hwf
    split at hwf
    next => cases hwf
    next i' hd' =>
      simp only [Bool.and_eq_true] at hwf
      obtain ⟨⟨allowed, -⟩, tail⟩ := hwf
      cases k with
      | zero =>
        cases he
        cases hd'.symm.trans hd
        exact allowed
      | succ k =>
        rw [List.getElem?_cons_succ] at he
        split at tail
        next => rw [List.isEmpty_iff.mp tail] at he; cases he
        next => exact ih tail he

theorem configWf_allowed {id : SeqId} {k : Nat} {e : RomWord} (hwf : configWf c = true)
    (he : (c.seqRom.entries id)[k]? = some e) (hd : decodeEntry e = .ok i) : i.allowedIn id = true := by
  have listed : id ∈ SeqId.all := by cases id <;> decide
  unfold configWf seqRomWf at hwf
  rw [Bool.and_eq_true, List.all_eq_true] at hwf
  obtain ⟨-, sequences⟩ := hwf
  exact sequenceWf_allowed (sequences id listed) he hd

theorem phase_of_coldboot {p : Phase} (h : p.sequence c = .tunerColdboot) : p = .initTuner := by
  cases p with
  | initTuner => rfl
  | initDemod | tuneReset => cases h
  | sleep old | tuneSleep old => cases old <;> cases h
  | tuneS2A req | tuneSame req | tuneLoad req =>
    obtain ⟨target, _, _, _⟩ := req
    cases target <;> cases h
  | tuneFreq req =>
    simp only [Phase.sequence] at h
    unfold freqSequence at h
    split at h
    · cases h
    · cases h
    · split at h <;> cases h

/-- In a well-formed configuration a poll of the running sequence is the cold boot's (R333). -/
theorem coldboot_of_pollz {k : Nat} {e : RomWord} {a : Access} {p : Phase} (hwf : configWf c = true)
    (he : (c.seqRom.entries (p.sequence c))[k]? = some e) (hd : decodeEntry e = .ok (.pollz a)) : p = .initTuner := by
  have allowed := configWf_allowed hwf he hd
  simp only [Instr.allowedIn, Bool.and_eq_true, beq_iff_eq] at allowed
  obtain ⟨-, -, inColdboot⟩ := allowed
  exact phase_of_coldboot inColdboot

theorem decodeCommand_isCommand {w0 : Word} {ops : List Word} (h : decodeCommand w0 ops = .ok i) : i.isCommand = true := by
  have e : encode i = .command w0 ops := encodeUndoesDecode (.command w0 ops) i h
  cases i with
  | endSeq | wr | wrv | delay | pollz | rdsel | hook => cases e
  | _ => rfl

/-! ### The obligation -/

theorem r0_eq (r : Response) : r.r0.extractLsb' 8 24 = 0 ∧ r.r0.toNat = statusNumber r.status := by
  have number : ∀ st : Status, ((0 : BitVec 24) ++ st.code).toNat = statusNumber st := by
    intro st
    cases st <;> rfl
  exact ⟨BitVec.extractLsb'_append_eq_left, number r.status⟩

theorem step_tunerInitError {ws : List Word} (good : GoodState s) (hs : s.resp = none) (h : step s = .next t)
    (ht : t.resp = some { status := .tunerInitError, results := ws }) : ∃ r, s.run = some r ∧ r.phase = .initTuner := by
  obtain ⟨-, -, entry | idle | command⟩ := step_cases h
  · obtain ⟨r, e, i, hr, he, hd, hexec⟩ := entry
    cases exec_answers hs hexec _ ht
    exact ⟨r, hr, coldboot_of_pollz good.config he hd⟩
  · obtain ⟨-, rfl, -⟩ := idle
    rw [hs] at ht
    cases ht
  · obtain ⟨c, rest, -, -, -, ⟨_, -, rfl⟩ | ⟨i, hd, hexec⟩⟩ := command
    · cases ht
    · cases exec_answers rfl hexec _ ht
      cases decodeCommand_isCommand hd

/-- Settles O8: every response is among those `ResponseOf` lists for its instruction. -/
theorem statusesByInstruction : Obligations.StatusesByInstruction := by
  refine ⟨r0_eq, fun s t ws good hs h ht => step_tunerInitError good hs h ht, fun i s t st ws hs h ht => ?_⟩
  cases exec_answers hs h _ ht with
  | ok h => simp [h]
  | busError tgt bank reg val mask => simpa using ⟨tgt, bank, reg, val, mask, rfl⟩
  | statusReadFails => simp [resultCount]
  | entryFails h => simp [resultCount_entry h, h]
  | pollFails a => simp [resultCount]
  | unsupported sys bw freq sid => simp [resultCount]
  | illegal h => cases h <;> simp [*]

end Sys2Proof.Proofs
end

section
/-! A step around the instruction it finds (R90, R200, R348), and the illegal commands (R101, R334). -/

namespace Sys2Proof.Proofs

open Sys2Proof.Machine Sys2Proof.Claims

variable {s t : State} {i : Instr} {c : Config} {w0 : Word} {opc : Byte} {low : BitVec 24} {ops : List Word}

/-! ### A step by what it fetches -/

theorem step_of_instr (hf : s.faultReason = none) (ha : s.refused = false) (h : fetch s = .instr i t) :
    step s = exec i t := by
  simp only [step, hf, ha, h]

theorem step_of_illegal (hf : s.faultReason = none) (ha : s.refused = false) (h : fetch s = .illegal t) :
    step s = .next (raiseIllegal t) := by
  simp only [step, hf, ha, h]

theorem fetch_of_run {r : Run} {e : RomWord} (hr : s.run = some r)
    (he : (s.cfg.seqRom.entries (r.phase.sequence s.cfg))[r.index]? = some e) (hd : decodeEntry e = .ok i) :
    fetch s = .instr i s := by
  simp only [fetch, hr, fetchEntry, he, hd]

/-- Between commands, with the bus lock not held by another block, a step looks at the command port (R90, R348). -/
theorem fetch_of_ready (h : Ready s) : fetch s = fetchCommand s := by
  obtain ⟨-, -, hr, hl⟩ := h
  unfold fetch
  cases hk : s.lock with
  | other => exact absurd hk hl
  | free | held => simp only [hr]

theorem step_of_decodes {x : Command} {rest : List Command} (h : Ready s) (hp : s.port = x :: rest)
    (hd : decodeCommand x.w0 x.ops = .ok i) : step s = exec i (takeCommand rest s) :=
  have ⟨hf, ha, _, _⟩ := h
  step_of_instr hf ha (by simp only [fetch_of_ready h, fetchCommand, hp, hd])

theorem step_of_undecodable {x : Command} {rest : List Command} {err : DecodeError} (h : Ready s)
    (hp : s.port = x :: rest) (hd : decodeCommand x.w0 x.ops = .error err) :
    step s = .next (raiseIllegal (takeCommand rest s)) :=
  have ⟨hf, ha, _, _⟩ := h
  step_of_illegal hf ha (by simp only [fetch_of_ready h, fetchCommand, hp, hd])

/-- Settles O5, by what a step fetches from the port and from SEQ_ROM. -/
theorem stepRunsTheDecodedInstruction : Obligations.StepRunsTheDecodedInstruction :=
  ⟨fun _ _ _ _ h hp hd => step_of_decodes h hp hd,
    fun _ _ _ _ hf ha hr he hd => step_of_instr hf ha (fetch_of_run hr he hd)⟩

/-! ### Fields of a command word -/

theorem toNat_div_eq_extractLsb' (w : Word) : w.toNat / 2 ^ 24 = (w.extractLsb' 24 8).toNat := by
  have := w.isLt
  simp only [BitVec.extractLsb'_toNat, Nat.shiftRight_eq_div_pow]
  omega

theorem toNat_mod_eq_extractLsb' (w : Word) (n : Nat) : w.toNat % 2 ^ n = (w.extractLsb' 0 n).toNat := by
  simp [BitVec.extractLsb'_toNat]

theorem commandWord_toNat_div (opc : Byte) (low : BitVec 24) : (commandWord opc low).toNat / 2 ^ 24 = opc.toNat := by
  rw [toNat_div_eq_extractLsb', commandWord_opcode]

theorem commandWord_field {start len : Nat} (opc : Byte) (low : BitVec 24) (h : start + len ≤ 24) :
    (commandWord opc low).extractLsb' start len = low.extractLsb' start len := by
  rw [← commandWord_low opc low, extractLsb'_extractLsb' _ h, commandWord_low, Nat.zero_add]

/-- A field that a mask covers is 0 where the masked word is. -/
theorem field_of_masked {mask : Word} {start len : Nat} (h : commandWord opc low &&& mask = 0) (hfit : start + len ≤ 24)
    (covered : mask.extractLsb' start len = BitVec.allOnes len) : low.extractLsb' start len = 0 := by
  have field := congrArg (BitVec.extractLsb' start len) h
  rw [BitVec.extractLsb'_and, covered, commandWord_field opc low hfit] at field
  simpa using field

/-! ### The command words that decode -/

theorem parseCN_total {j : Instr} (hm : low = 0) (hn : ops.length = 0) : ∃ i, parseCN low ops j = .ok i := by
  obtain rfl := List.length_eq_zero_iff.mp hn
  exact ⟨_, if_neg (not_not.mpr hm)⟩

theorem parseCX_total {mk : Word → Instr} (hm : low = 0) (hn : ops.length = 1) : ∃ i, parseCX low ops mk = .ok i := by
  obtain ⟨x, rfl⟩ := List.length_eq_one_iff.mp hn
  exact ⟨_, if_neg (not_not.mpr hm)⟩

theorem parseCXX_total {mk : Word → Word → Instr} (hm : low = 0) (hn : ops.length = 2) :
    ∃ i, parseCXX low ops mk = .ok i := by
  obtain ⟨a, b, rfl⟩ := List.length_eq_two.mp hn
  exact ⟨_, if_neg (not_not.mpr hm)⟩

theorem parseCW_total {mk : BitVec 6 → Word → Instr} (hm : low.extractLsb' 6 18 = 0) (hn : ops.length = 1) :
    ∃ i, parseCW low ops mk = .ok i := by
  obtain ⟨v, rfl⟩ := List.length_eq_one_iff.mp hn
  exact ⟨_, if_neg (not_not.mpr hm)⟩

theorem parseCI_total {mk : Byte → Word → Instr} (hm : low.extractLsb' 8 16 = 0) (hn : ops.length = 1) :
    ∃ i, parseCI low ops mk = .ok i := by
  obtain ⟨v, rfl⟩ := List.length_eq_one_iff.mp hn
  exact ⟨_, if_neg (not_not.mpr hm)⟩

theorem parseCS_total {mk : BitVec 3 → Word → Word → Instr} (hm : low.extractLsb' 3 21 = 0) (hn : ops.length = 2) :
    ∃ i, parseCS low ops mk = .ok i := by
  obtain ⟨a, b, rfl⟩ := List.length_eq_two.mp hn
  exact ⟨_, if_neg (not_not.mpr hm)⟩

theorem parseCF_total {mk : BitVec 3 → BitVec 4 → Word → Word → Instr} (hm : low.extractLsb' 12 12 = 0)
    (hm' : low.extractLsb' 3 5 = 0) (hn : ops.length = 2) : ∃ i, parseCF low ops mk = .ok i := by
  obtain ⟨f, sid, rfl⟩ := List.length_eq_two.mp hn
  exact ⟨_, if_neg (not_or.mpr ⟨not_not.mpr hm, not_not.mpr hm'⟩)⟩

theorem parseCR_total {mk : Target → Byte → Byte → Byte → Byte → Except DecodeError Instr}
    (hm : low.extractLsb' 1 23 = 0) (hn : ops.length = 1)
    (hmk : ∀ w ∈ ops, ∀ tgt reg val mask, ∃ i, mk tgt (w.extractLsb' 24 8) reg val mask = .ok i) :
    ∃ i, parseCR low ops mk = .ok i := by
  obtain ⟨w, rfl⟩ := List.length_eq_one_iff.mp hn
  obtain ⟨i, hi⟩ := hmk w (List.mem_singleton_self w) (.ofBit (low.extractLsb' 0 1)) (w.extractLsb' 16 8)
    (w.extractLsb' 8 8) (w.extractLsb' 0 8)
  exact ⟨i, (if_neg (not_not.mpr hm)).trans hi⟩

/-- R101 items 1 to 4 are all that keeps a command from decoding. -/
theorem decodeOpcode_total {mustBe0 : Word} {count : Nat} (hf : formatOf opc.toNat = some (mustBe0, count))
    (hm : commandWord opc low &&& mustBe0 = 0) (hn : ops.length = count)
    (hbank : opc.toNat = 0x10 → ∀ w ∈ ops, w.extractLsb' 24 8 = 0) : ∃ i, decodeOpcode opc low ops = .ok i := by
  have low_eq_zero : commandWord opc low &&& 0x00FFFFFF = 0 → low = 0 := fun h => by
    simpa using field_of_masked (start := 0) (len := 24) h le_rfl rfl
  unfold formatOf at hf
  unfold decodeOpcode
  generalize opc.toNat = n at hf hbank ⊢
  split at hf <;> cases hf
  · exact parseCX_total (low_eq_zero hm) hn
  · exact parseCX_total (low_eq_zero hm) hn
  · exact parseCX_total (low_eq_zero hm) hn
  · exact parseCX_total (low_eq_zero hm) hn
  · exact parseCW_total (field_of_masked hm (by decide) rfl) hn
  · exact parseCI_total (field_of_masked hm (by decide) rfl) hn
  · exact parseCI_total (field_of_masked hm (by decide) rfl) hn
  · exact parseCXX_total (low_eq_zero hm) hn
  · exact parseCXX_total (low_eq_zero hm) hn
  · exact parseCS_total (field_of_masked hm (by decide) rfl) hn
  · exact parseCR_total (field_of_masked hm (by decide) rfl) hn fun w hw _ _ _ _ =>
      ⟨_, mkSetBits_eq_ok.mpr ⟨hbank rfl w hw, rfl⟩⟩
  · exact parseCR_total (field_of_masked hm (by decide) rfl) hn fun _ _ _ _ _ _ => ⟨_, rfl⟩
  · exact parseCN_total (low_eq_zero hm) hn
  · exact parseCN_total (low_eq_zero hm) hn
  · exact parseCN_total (low_eq_zero hm) hn
  · exact parseCN_total (low_eq_zero hm) hn
  · exact parseCF_total (field_of_masked hm (by decide) rfl) (field_of_masked hm (by decide) rfl) hn

theorem illegal_of_undecodable {err : DecodeError} (h : decodeCommand w0 ops = .error err) : IllegalCommand c w0 ops := by
  by_contra legal
  rw [← commandWord_of_word w0] at legal
  unfold IllegalCommand at legal
  rw [commandWord_toNat_div] at legal
  split at legal
  next => exact legal trivial
  next mustBe0 count hf =>
    obtain ⟨hm, legal⟩ := not_or.mp legal
    obtain ⟨hn, legal⟩ := not_or.mp legal
    obtain ⟨hbank, -⟩ := not_or.mp legal
    have bank : (w0.extractLsb' 24 8).toNat = 0x10 → ∀ w ∈ ops, w.extractLsb' 24 8 = 0 := fun ho w hw => by
      by_contra hne
      refine hbank ⟨ho, w, hw, ?_⟩
      rw [toNat_div_eq_extractLsb']
      simpa [BitVec.toNat_eq] using hne
    obtain ⟨i, hi⟩ := decodeOpcode_total hf (not_not.mp hm) (not_not.mp hn) bank
    cases h.symm.trans hi

/-! ### The commands that decode and are illegal all the same -/

/-- The row of spec/opcode_table.json fixes the opcode too; R92's "must be 0" bits are the others. -/
theorem meets_format_of_row {mask pattern : Word} {count : Nat} (row : w0 &&& mask = pattern ∧ ops.length = count) :
    w0 &&& (mask &&& 0x00FFFFFF) = pattern &&& 0x00FFFFFF ∧ ops.length = count :=
  ⟨by rw [← row.1, BitVec.and_assoc], row.2⟩

/-- Where R101 items 1 to 3 are met, a command is illegal by item 4, 5, 6 or 7. -/
theorem illegal_iff_of_format {mustBe0 : Word} {count : Nat} (hf : formatOf opc.toNat = some (mustBe0, count))
    (meets : commandWord opc low &&& mustBe0 = 0 ∧ ops.length = count) :
    IllegalCommand c (commandWord opc low) ops ↔
      (opc.toNat = 0x10 ∧ ∃ w ∈ ops, (w.extractLsb' 24 8).toNat ≠ 0) ∨
      (opc.toNat = 0x04 ∧ c.cnrTables.length ≤ (low.extractLsb' 0 8).toNat) ∨
      (opc.toNat = 0x05 ∧ c.pwlModels.length ≤ (low.extractLsb' 0 8).toNat) ∨
      (opc.toNat = 0x0A ∧ (low.extractLsb' 0 3).toNat ≠ 2 ∧ (low.extractLsb' 0 3).toNat ≠ 3) := by
  have field {n : Nat} (hn : 0 + n ≤ 24) : (commandWord opc low).toNat % 2 ^ n = (low.extractLsb' 0 n).toNat := by
    rw [toNat_mod_eq_extractLsb', commandWord_field opc low hn]
  unfold IllegalCommand
  rw [commandWord_toNat_div, hf, field (by decide), field (by decide)]
  simp only [toNat_div_eq_extractLsb', meets, ne_eq, not_true, false_or]

theorem legal_of_format {mustBe0 : Word} {count : Nat} (hf : formatOf opc.toNat = some (mustBe0, count))
    (meets : commandWord opc low &&& mustBe0 = 0 ∧ ops.length = count) (other : opc.toNat ∉ [0x10, 0x04, 0x05, 0x0A]) :
    ¬ IllegalCommand c (commandWord opc low) ops := by
  rw [illegal_iff_of_format hf meets]
  simp_all

/-- Of the commands that decode, the illegal ones are those of R101 items 5 to 7. -/
theorem illegal_iff_of_encode (h : encode i = .command w0 ops) : IllegalCommand c w0 ops ↔ IllegalOperand c i := by
  cases i with
  | log2 _ | log10 _ | percalc _ _ | rssiT _ _ | rssiS _ | cnrT _ | init | sleep | readStatus | getState =>
    cases h
    exact iff_of_false (legal_of_format rfl ⟨rfl, rfl⟩ (by decide)) nofun
  | sext w v =>
    cases h
    exact iff_of_false (legal_of_format rfl (meets_format_of_row (Laws.MatchesTable.sext w v)) (by decide)) nofun
  | setBankedBits tgt bank reg val mask =>
    cases h
    exact iff_of_false
      (legal_of_format rfl (meets_format_of_row (Laws.MatchesTable.setBankedBits tgt bank reg val mask)) (by decide)) nofun
  | setFrontend sys bw freq sid =>
    cases h
    exact iff_of_false
      (legal_of_format rfl (meets_format_of_row (Laws.MatchesTable.setFrontend sys bw freq sid)) (by decide)) nofun
  | setBits tgt reg val mask =>
    cases h
    rw [illegal_iff_of_format rfl (meets_format_of_row (Laws.MatchesTable.setBits tgt reg val mask))]
    have bank : (crOperand 0 reg val mask).extractLsb' 24 8 = 0 := (eq_crOperand_iff.mp rfl).1
    refine iff_of_false ?_ nofun
    simp only [List.mem_singleton, exists_eq_left, bank]
    simp
  | tlookup id q =>
    cases h
    rw [illegal_iff_of_format rfl (meets_format_of_row (Laws.MatchesTable.tlookup id q))]
    have field : ((0 : BitVec 16) ++ id : BitVec 24).extractLsb' 0 8 = id := BitVec.extractLsb'_append_eq_right
    rw [field, illegalOperand_tlookup]
    simp
  | pwl id v =>
    cases h
    rw [illegal_iff_of_format rfl (meets_format_of_row (Laws.MatchesTable.pwl id v))]
    have field : ((0 : BitVec 16) ++ id : BitVec 24).extractLsb' 0 8 = id := BitVec.extractLsb'_append_eq_right
    rw [field, illegalOperand_pwl]
    simp
  | cnrS sys code rate =>
    cases h
    rw [illegal_iff_of_format rfl (meets_format_of_row (Laws.MatchesTable.cnrS sys code rate))]
    have field : ((0 : BitVec 21) ++ sys : BitVec 24).extractLsb' 0 3 = sys := BitVec.extractLsb'_append_eq_right
    rw [field, illegalOperand_cnrS]
    simp
  | endSeq | wr | wrv | delay | pollz | rdsel | hook => cases h

theorem exec_of_illegalOperand (h : IllegalOperand s.cfg i) : exec i s = .next (raiseIllegal s) := by
  cases h with
  | tlookup q h => simp only [exec, execTlookup, List.getElem?_eq_none h]
  | pwl v h => simp only [exec, execPwl, List.getElem?_eq_none h]
  | cnrS code rate h2 h3 =>
    simp only [exec]
    unfold execCnrS
    split
    next e => exact absurd e h2
    next e => exact absurd e h3
    next => rfl

/-- An illegal command is answered at once, and nothing but the port and the response changes (R334). -/
theorem step_of_illegalCommand {x : Command} {rest : List Command} (h : Ready s) (hp : s.port = x :: rest)
    (illegal : IllegalCommand s.cfg x.w0 x.ops) : step s = .next (ended { s with port := rest } .illegalCommand []) := by
  cases hd : decodeCommand x.w0 x.ops with
  | error err => exact step_of_undecodable h hp hd
  | ok i =>
    have operand : IllegalOperand s.cfg i := (illegal_iff_of_encode (encodeUndoesDecode (.command _ _) i hd)).mp illegal
    rw [step_of_decodes h hp hd]
    exact exec_of_illegalOperand operand

theorem illegalCommand_of_response {x : Command} {rest : List Command} (h : Ready s) (hp : s.port = x :: rest)
    (hstep : step s = .next t) (ht : t.resp = some { status := .illegalCommand, results := [] }) :
    IllegalCommand s.cfg x.w0 x.ops := by
  cases hd : decodeCommand x.w0 x.ops with
  | error err => exact illegal_of_undecodable hd
  | ok i =>
    rw [step_of_decodes h hp hd] at hstep
    cases exec_answers (takeCommand_resp s rest) hstep _ ht with
    | illegal operand => exact (illegal_iff_of_encode (encodeUndoesDecode (.command _ _) i hd)).mpr operand

/-- Settles O4: a command is illegal when it does not decode, or has an operand of R101 items 5 to 7; either way it is
answered at once, and no other response has the status. -/
theorem illegalCommandsAndNoOthers : Obligations.IllegalCommandsAndNoOthers :=
  fun _ _ _ h hp => ⟨step_of_illegalCommand h hp, fun _ hstep ht => illegalCommand_of_response h hp hstep ht⟩

end Sys2Proof.Proofs
end

section
/-! The sequences of a tune (R106, R221, R223, R230). -/

namespace Sys2Proof.Proofs

open Sys2Proof.Machine Sys2Proof.Claims

theorem a2sSequence_number (sy : System) : (a2sSequence sy).number = 8 + (systemNumber sy - 1) := by cases sy <;> rfl

theorem s2aSequence_number (sy : System) : (s2aSequence sy).number = 2 + (systemNumber sy - 1) := by cases sy <;> rfl

theorem sameSequence_number (sy : System) : (sameSequence sy).number = 5 + (systemNumber sy - 1) := by cases sy <;> rfl

theorem loadSequence_number (sy : System) :
    (loadSequence (subModeOf sy)).number = if sy = .isdbT then 12 else 13 := by cases sy <;> rfl

theorem freqSequence_number (c : Config) (sy : System) (freq : Word) :
    (freqSequence c sy freq).number =
      if sy = .isdbT then 14
      else if sy = .isdbS3 ∧ c.s3HighPathThresholdKhz.toNat < freq.toNat then 16 else 15 := by
  cases sy with
  | isdbT | isdbS => rfl
  | isdbS3 =>
    by_cases high : c.s3HighPathThresholdKhz.toNat < freq.toNat <;> simp [freqSequence, high, SeqId.number]

/-- Settles O34, by the number of each kind of sequence. -/
theorem tuneSequenceNumbers : Obligations.TuneSequenceNumbers := fun c old req =>
  ⟨a2sSequence_number old, s2aSequence_number req.target, sameSequence_number req.target, rfl,
    loadSequence_number req.target, freqSequence_number c req.target req.freq⟩

end Sys2Proof.Proofs
end

section
/-! Primitives whose answers are listed (R20, R36, R340): what a procedure does when all of them succeed and when one fails,
stated for each primitive, their composition and the masked access. -/

namespace Sys2Proof.Proofs

open Sys2Proof.Machine Sys2Proof.Claims

/-- The state once primitives with these events have taken one listed answer each: REP mirrors the repeater calls (R36). -/
def tookListed (s : State) (es : List Event) : State :=
  { s with rep := repAfterAll s.rep es, env := s.env.drop es.length, history := s.history ++ es }

/-- `r` is the outcome from `s` of a procedure that issues the events `es` and gives `x` when every primitive succeeds, and
that stops at the first one that fails. -/
structure Performs {α : Type} (s : State) (es : List Event) (x : α) (r : Res α) : Prop where
  succeeds : AllOk s es.length → r = .ok x (tookListed s es)
  fails : ∀ k e, AllOk s k → s.env[k]? = some .err → es[k]? = some e →
    r = .err (tookListed s (es.take k ++ [failedEvent e]))

variable {α β : Type} {s : State} {es fs : List Event}

/-! ### Listed answers -/

@[simp] theorem tookListed_nil (s : State) : tookListed s [] = s := by simp [tookListed, repAfterAll]

@[simp] theorem tookListed_tookListed (s : State) (es fs : List Event) :
    tookListed (tookListed s es) fs = tookListed s (es ++ fs) := by
  simp [tookListed, repAfterAll]

@[simp] theorem tookListed_cfg (s : State) (es : List Event) : (tookListed s es).cfg = s.cfg := rfl

@[simp] theorem tookListed_env (s : State) (es : List Event) : (tookListed s es).env = s.env.drop es.length := rfl

/-- Where REP has not changed, only the answers to come and the history have. -/
theorem tookListed_of_rep (h : (tookListed s es).rep = s.rep) :
    tookListed s es = { s with env := s.env.drop es.length, history := s.history ++ es } := by
  have hrep : repAfterAll s.rep es = s.rep := h
  rw [tookListed, hrep]

@[simp] theorem answerAt_tookListed (s : State) (es : List Event) (k : Nat) :
    answerAt (tookListed s es) k = answerAt s (es.length + k) := by
  simp [answerAt]

theorem allOk_mono {m n : Nat} (h : AllOk s n) (hmn : m ≤ n) : AllOk s m :=
  fun k hk => h k (hk.trans_le hmn)

theorem allOk_tookListed {n : Nat} (h : AllOk s (es.length + n)) : AllOk (tookListed s es) n := by
  intro k hk
  simpa using h (es.length + k) (by omega)

/-- The next answer, where one is listed, is the listed one, and taking it removes it from the list. -/
theorem answer_of_listed {a : Answer} (h : s.env[0]? = some a) :
    s.answer = a ∧ answerAt s 0 = a ∧ s.drawn = { s with env := s.env.drop 1 } := by
  obtain ⟨rest, henv⟩ := List.head?_eq_some_iff.mp ((List.head?_eq_getElem? ..).trans h)
  exact ⟨State.answer_of_env s henv, by simp [answerAt, henv], by simp [State.drawn_of_env s henv, henv]⟩

/-! ### The primitives -/

theorem repAfter_failedEvent (rep : Bool) (e : Event) : repAfter rep (failedEvent e) = rep := by cases e <;> rfl

/-- A procedure of one primitive: `e` where the answer is `ok`, and `e` as it is recorded when it fails. -/
theorem performs_one {x : α} {r : Res α} {e : Event}
    (h : s.answer = answerAt s 0 →
      (s.answer.isOk = true ∧ r = .ok x { s.drawn.record e with rep := repAfter s.drawn.rep e }) ∨
      (s.answer.isOk = false ∧ r = .err (s.drawn.record (failedEvent e)))) : Performs s [e] x r where
  succeeds hall := by
    obtain ⟨a, ha, isOk⟩ := hall 0 (by simp)
    obtain ⟨answer, listed, drawn⟩ := answer_of_listed ha
    obtain ⟨-, ends⟩ | ⟨err, -⟩ := h (answer.trans listed.symm)
    · rw [ends, drawn]; rfl
    · rw [answer, isOk] at err; cases err
  fails k e' _ hk he := by
    obtain ⟨rfl, rfl⟩ : k = 0 ∧ e = e' := by simpa [List.getElem?_singleton] using he
    obtain ⟨answer, listed, drawn⟩ := answer_of_listed hk
    obtain ⟨isOk, -⟩ | ⟨-, ends⟩ := h (answer.trans listed.symm)
    · rw [answer] at isOk; cases isOk
    · simp [ends, drawn, tookListed, repAfterAll, repAfter_failedEvent, State.record]

theorem busWrite_performs (a : BusAddr) (r v : Byte) (s : State) :
    Performs s [.busWrite a r [v] true] () (busWrite a r v s) :=
  performs_one fun _ => busWrite_cases a r v s

theorem setRepeater_performs (b : Bool) (s : State) : Performs s [.setRepeater b true] () (setRepeater b s) :=
  performs_one fun _ => setRepeater_cases b s

theorem readByte_performs (a : BusAddr) (r : Byte) (s : State) :
    Performs s [.busRead a r 1 (some [byte0 (answerAt s 0)])] (byte0 (answerAt s 0)) (readByte a r s) := by
  refine performs_one fun listed => ?_
  rw [← listed]
  unfold readByte
  cases s.answer with
  | err => exact .inr ⟨rfl, rfl⟩
  | ok => exact .inl ⟨rfl, rfl⟩

/-! ### Composition -/

theorem performs_nil (s : State) (x : α) : Performs s [] x (.ok x s) where
  succeeds _ := by simp
  fails k e _ _ he := by simp at he

theorem Performs.bind {x : α} {y : β} {r : Res α} {f : α → State → Res β} (h : Performs s es x r)
    (hf : Performs (tookListed s es) fs y (f x (tookListed s es))) : Performs s (es ++ fs) y (r.bind f) where
  succeeds hall := by
    rw [List.length_append] at hall
    rw [h.succeeds (allOk_mono hall (by omega)), Res.bind, hf.succeeds (allOk_tookListed hall), tookListed_tookListed]
  fails k e hall hk he := by
    by_cases hlt : k < es.length
    · rw [List.getElem?_append_left hlt] at he
      rw [h.fails k e hall hk he, Res.bind, List.take_append_of_le_length hlt.le]
    · obtain ⟨j, rfl⟩ := Nat.exists_eq_add_of_le (Nat.le_of_not_lt hlt)
      rw [List.getElem?_append_right (by omega), Nat.add_sub_cancel_left] at he
      rw [h.succeeds (allOk_mono hall (by omega)), Res.bind, hf.fails j e (allOk_tookListed hall) (by simpa using hk) he]
      rw [tookListed_tookListed, List.take_length_add_append, List.append_assoc]

/-! ### The masked access (R130, R131) -/

/-- SetBitsOp without a bank, SetBankedBitsOp with one. -/
def accessAt (a : BusAddr) (bank : Option Byte) (reg val mask : Byte) (s : State) : Res Unit :=
  match bank with
  | none => setBitsOp a reg val mask s
  | some b => setBankedBitsOp a b reg val mask s

/-- A bit-field command ends with the outcome of its access. -/
theorem exec_bitFieldCommand (tgt : Target) (bank : Option Byte) (reg val mask : Byte) (s : State) :
    exec (bitFieldCommand tgt bank reg val mask) s =
      .next (finishBits (onTarget tgt (accessAt (s.cfg.addr tgt) bank reg val mask) s)) := by
  cases bank <;> rfl

theorem accessAt_accessOnly (a : BusAddr) (bank : Option Byte) (reg val mask : Byte) (s : State) :
    AccessOnly a s (accessAt a bank reg val mask s).state := by
  cases bank
  · exact setBitsOp_accessOnly ..
  · exact setBankedBitsOp_accessOnly ..

theorem addressOf_eq_addr (c : Config) (tgt : Target) : addressOf c tgt = c.addr tgt := by cases tgt <;> rfl

theorem length_accessEvents (c : Config) (tgt : Target) (bank : Option Byte) (reg val mask old : Byte) :
    (accessEvents c tgt bank reg val mask old).length = accessAnswers bank mask := by
  unfold accessEvents accessAnswers
  cases bank <;> split_ifs <;> simp_all

/-- A banked access selects the bank and goes on as an unbanked one. -/
theorem accessEvents_some (c : Config) (tgt : Target) (b reg val mask old : Byte) :
    accessEvents c tgt (some b) reg val mask old =
      [.busWrite (c.addr tgt) c.bankSelectReg [b] true] ++ accessEvents c tgt none reg val mask old := by
  rw [← addressOf_eq_addr]
  rfl

theorem setBitsOp_performs (tgt : Target) (reg val mask : Byte) (s : State) :
    Performs s (accessEvents s.cfg tgt none reg val mask (byte0 (answerAt s 0))) ()
      (setBitsOp (s.cfg.addr tgt) reg val mask s) := by
  unfold setBitsOp accessEvents
  rw [addressOf_eq_addr]
  split_ifs
  · exact performs_nil s ()
  · exact busWrite_performs ..
  · exact (readByte_performs ..).bind (busWrite_performs ..)

theorem accessAt_performs (tgt : Target) (bank : Option Byte) (reg val mask : Byte) (s : State) :
    Performs s (accessEvents s.cfg tgt bank reg val mask (byte0 (answerAt s (readAnswer 0 bank)))) ()
      (accessAt (s.cfg.addr tgt) bank reg val mask s) := by
  cases bank with
  | none => exact setBitsOp_performs tgt reg val mask s
  | some b =>
    have select := busWrite_performs (s.cfg.addr tgt) s.cfg.bankSelectReg b s
    have merge := setBitsOp_performs tgt reg val mask
      (tookListed s [.busWrite (s.cfg.addr tgt) s.cfg.bankSelectReg [b] true])
    rw [answerAt_tookListed] at merge
    rw [accessEvents_some]
    exact select.bind merge

/-! ### The repeater bracket (R220) -/

theorem withRepeater_succeeds {p : State → Res Unit}
    (h : Performs (tookListed s [.setRepeater true true]) es () (p (tookListed s [.setRepeater true true])))
    (hall : AllOk s (es.length + 2)) :
    withRepeater p s = .ok () (tookListed s ([.setRepeater true true] ++ es ++ [.setRepeater false true])) := by
  have opens := (setRepeater_performs true s).succeeds (allOk_mono hall (by simp))
  have body := h.succeeds (allOk_tookListed (allOk_mono hall (by rw [List.length_singleton]; omega)))
  have closes := (setRepeater_performs false (tookListed s ([.setRepeater true true] ++ es))).succeeds
    (allOk_tookListed (allOk_mono hall (by simp)))
  rw [tookListed_tookListed] at body closes
  simp only [withRepeater, openRepeater, opens, body, closeRepeater, closes]

end Sys2Proof.Proofs
end

section
/-! The bit-field commands (R130 to R132). -/

namespace Sys2Proof.Proofs

open Sys2Proof.Machine Sys2Proof.Claims

/-! ### Their events -/

/-- Settles O26, by what the access and its bracket do when every primitive succeeds. -/
theorem bitFieldCommandsComplete : Obligations.BitFieldCommandsComplete := by
  intro s bank reg val mask
  refine ⟨fun hall => ?_, fun hall => ?_⟩
  · have access := accessAt_performs .demod bank reg val mask s
    have done := access.succeeds (by rwa [length_accessEvents])
    have rep := (accessAt_accessOnly (s.cfg.addr .demod) bank reg val mask s).rep
    rw [done] at rep
    rw [exec_bitFieldCommand, onTarget, done, tookListed_of_rep rep, length_accessEvents]
    rfl
  · have access := accessAt_performs .tuner bank reg val mask (tookListed s [.setRepeater true true])
    have done := withRepeater_succeeds access (by rwa [length_accessEvents])
    have byteRead : answerAt (tookListed s [.setRepeater true true]) (readAnswer 0 bank) =
        answerAt s (readAnswer 1 bank) := by simp [readAnswer]
    rw [byteRead, tookListed_cfg] at done
    rw [exec_bitFieldCommand, onTarget, done]
    simp [finishBits, respond, ended, tookListed, repAfterAll, repAfter, length_accessEvents]

/-- Settles O27, by what the access does when its `k`-th primitive fails. -/
theorem bitFieldStopsAtFirstFailure : Obligations.BitFieldStopsAtFirstFailure := by
  intro s bank reg val mask k e hall hk he
  have failed := (accessAt_performs .demod bank reg val mask s).fails k e hall hk he
  have rep := (accessAt_accessOnly (s.cfg.addr .demod) bank reg val mask s).rep
  rw [failed] at rep
  have hlt := (List.getElem?_eq_some_iff.mp he).1
  rw [exec_bitFieldCommand, onTarget, failed, tookListed_of_rep rep, List.length_append, List.length_take_of_le hlt.le,
    ← List.append_assoc]
  rfl

/-! ### The tuning fields pass through -/

/-- DS, SYS, SUB and TUNED_* (R32 to R37). -/
structure TuningFields where
  ds : DemodState
  sys : BroadcastSystem
  sub : SubMode
  freq : Word
  bw : BitVec 4
  valid : Bool

/-- The state with these tuning fields in place of its own. -/
def withTuning (x : TuningFields) (s : State) : State :=
  { s with ds := x.ds, sys := x.sys, sub := x.sub, tunedFreq := x.freq, tunedBw := x.bw, tunedValid := x.valid }

/-- The outcome with these tuning fields in the state it leaves. -/
def resWithTuning {α : Type} (x : TuningFields) : Res α → Res α
  | .ok a s => .ok a (withTuning x s)
  | .err s => .err (withTuning x s)

/-- Other tuning fields pass through `p`, which does the same with them as without. -/
def PassesTuning {α : Type} (x : TuningFields) (p : State → Res α) : Prop :=
  ∀ s, p (withTuning x s) = resWithTuning x (p s)

variable {α β : Type} {x : TuningFields}

theorem withTuning_drawn (x : TuningFields) (s : State) : (withTuning x s).drawn = withTuning x s.drawn := by
  have henv : (withTuning x s).env = s.env := rfl
  cases h : s.env <;> simp only [State.drawn, henv, h] <;> rfl

theorem withTuning_answer (x : TuningFields) (s : State) : (withTuning x s).answer = s.answer := rfl

theorem busWrite_passesTuning (a : BusAddr) (r v : Byte) : PassesTuning x (busWrite a r v) := by
  intro s
  simp only [busWrite, withTuning_answer, withTuning_drawn]
  cases s.answer <;> rfl

theorem readByte_passesTuning (a : BusAddr) (r : Byte) : PassesTuning x (readByte a r) := by
  intro s
  simp only [readByte, withTuning_answer, withTuning_drawn]
  cases s.answer <;> rfl

theorem setRepeater_passesTuning (b : Bool) : PassesTuning x (setRepeater b) := by
  intro s
  simp only [setRepeater, withTuning_answer, withTuning_drawn]
  cases s.answer <;> rfl

theorem PassesTuning.bind {p : State → Res α} {f : α → State → Res β} (hp : PassesTuning x p)
    (hf : ∀ a, PassesTuning x (f a)) : PassesTuning x fun s => (p s).bind f := by
  intro s
  show (p (withTuning x s)).bind f = resWithTuning x ((p s).bind f)
  rw [hp s]
  cases p s with
  | ok a t => exact hf a t
  | err t => rfl

theorem setBitsOp_passesTuning (a : BusAddr) (reg val mask : Byte) : PassesTuning x (setBitsOp a reg val mask) := by
  intro s
  unfold setBitsOp
  split_ifs
  · rfl
  · exact busWrite_passesTuning _ _ _ s
  · exact (readByte_passesTuning a reg).bind (fun _ => busWrite_passesTuning _ _ _) s

theorem accessAt_passesTuning (a : BusAddr) (bank : Option Byte) (reg val mask : Byte) :
    PassesTuning x (accessAt a bank reg val mask) := by
  cases bank with
  | none => exact setBitsOp_passesTuning a reg val mask
  | some b =>
    intro s
    have select := busWrite_passesTuning (x := x) a s.cfg.bankSelectReg b
    exact select.bind (fun _ => setBitsOp_passesTuning a reg val mask) s

theorem setRepeater_state_passesTuning (b : Bool) (s : State) :
    (setRepeater b (withTuning x s)).state = withTuning x (setRepeater b s).state := by
  rw [setRepeater_passesTuning b s]
  cases setRepeater b s <;> rfl

theorem openRepeater_passesTuning : PassesTuning x openRepeater := by
  intro s
  unfold openRepeater
  rw [setRepeater_passesTuning true s]
  cases setRepeater true s with
  | ok _ t => rfl
  | err t => exact congrArg Res.err (setRepeater_state_passesTuning false t)

theorem withRepeater_passesTuning {p : State → Res Unit} (hp : PassesTuning x p) : PassesTuning x (withRepeater p) := by
  intro s
  unfold withRepeater
  rw [openRepeater_passesTuning s]
  cases openRepeater s with
  | err t => rfl
  | ok _ t =>
    simp only [resWithTuning, hp t]
    cases p t with
    | ok _ u => exact setRepeater_passesTuning false u
    | err u => exact congrArg Res.err (setRepeater_state_passesTuning false u)

theorem onTarget_passesTuning (tgt : Target) {p : State → Res Unit} (hp : PassesTuning x p) :
    PassesTuning x (onTarget tgt p) := by
  cases tgt
  · exact hp
  · exact withRepeater_passesTuning hp

theorem finishBits_withTuning (r : Res Unit) : finishBits (resWithTuning x r) = withTuning x (finishBits r) := by
  cases r <;> rfl

theorem finishBits_responds_sameFields {s : State} {r : Res Unit} (h : BusOnly s r.state) :
    ∃ st, (st = .ok ∨ st = .busError) ∧ (finishBits r).resp = some ⟨st, []⟩ ∧ SameFields s (finishBits r) := by
  have fields (st : Status) : SameFields s (respond st [] r.state) :=
    ⟨h.cfg, h.ds, h.sys, h.sub, h.tunedFreq, h.tunedBw, h.tunedValid, h.faultReason, h.port, h.refused⟩
  obtain ⟨-, e⟩ | ⟨-, e⟩ := finishBits_cases r <;> rw [e]
  · exact ⟨.ok, .inl rfl, rfl, fields .ok⟩
  · exact ⟨.busError, .inr rfl, rfl, fields .busError⟩

/-- Settles O29: other tuning fields pass through every primitive, and so through the access and its bracket. -/
theorem bitFieldIgnoresTunerState : Obligations.BitFieldIgnoresTunerState := by
  intro s tgt bank reg val mask ds sys sub f bw v
  have bus := onTarget_busOnly tgt (fun u => (accessAt_accessOnly (s.cfg.addr tgt) bank reg val mask u).busOnly) s
  have passes := onTarget_passesTuning (x := ⟨ds, sys, sub, f, bw, v⟩) tgt
    (accessAt_passesTuning (s.cfg.addr tgt) bank reg val mask) s
  obtain ⟨st, hst, resp, fields⟩ := finishBits_responds_sameFields bus
  refine ⟨_, st, hst, resp, fields, exec_bitFieldCommand .., ?_⟩
  calc exec (bitFieldCommand tgt bank reg val mask) (withTuning ⟨ds, sys, sub, f, bw, v⟩ s)
    _ = .next (finishBits (onTarget tgt (accessAt (s.cfg.addr tgt) bank reg val mask)
          (withTuning ⟨ds, sys, sub, f, bw, v⟩ s))) := exec_bitFieldCommand ..
    _ = .next (withTuning ⟨ds, sys, sub, f, bw, v⟩
          (finishBits (onTarget tgt (accessAt (s.cfg.addr tgt) bank reg val mask) s))) := by
        rw [passes, finishBits_withTuning]

end Sys2Proof.Proofs
end

section
/-! LOG2 and LOG10 (R150 to R156). R150's loop finds the most significant bit, and its index of the fraction table is
the five bits below that bit. -/

namespace Sys2Proof.Proofs

open Sys2Proof.Machine Sys2Proof.Claims

variable {x y : Word}

/-! ### The most significant bit and the bits below it -/

/-- R150's loop begins at half of `n`, so with enough fuel it counts up to the most significant bit of `n`. -/
theorem halvings_half {fuel n : Nat} (h : n < 2 ^ (fuel + 1)) : halvings fuel (n / 2) = Nat.log2 n := by
  induction fuel generalizing n with
  | zero => rw [halvings, Nat.log2_def, if_neg (by omega)]
  | succ fuel ih =>
    rw [halvings, Nat.log2_def]
    by_cases two : 2 ≤ n
    · rw [if_pos (by omega), if_pos two, ih (by omega)]
    · rw [if_neg (by omega), if_neg two]

theorem msbIndex_eq_log2 (x : Word) : msbIndex x = Nat.log2 x.toNat := halvings_half (by omega)

theorem log2_le_31 (x : Word) : Nat.log2 x.toNat ≤ 31 := by
  by_cases h : x.toNat = 0
  · simp [h]
  · have : Nat.log2 x.toNat < 32 := (Nat.log2_lt h).mpr x.isLt
    omega

/-- Both of R150's shifts, to the left and to the right, are one division. -/
theorem log2FracIndex_toNat (x : Word) : (log2FracIndex x).toNat = x.toNat * 32 / 2 ^ Nat.log2 x.toNat % 32 := by
  simp only [log2FracIndex, msbIndex_eq_log2, maxBitPrecision]
  generalize Nat.log2 x.toNat = count
  split
  next few =>
    have split32 : 2 ^ (5 - count) * 2 ^ count = 32 := by rw [← pow_add, Nat.sub_add_cancel few]; rfl
    have : x.toNat * 32 / 2 ^ count = x.toNat * 2 ^ (5 - count) :=
      Nat.div_eq_of_eq_mul_left (by positivity) (by rw [mul_assoc, split32])
    rw [BitVec.toNat_ofNat, Nat.shiftLeft_eq, this]
  next many =>
    have split32 : 2 ^ (count - 5) * 32 = 2 ^ count := by
      rw [← Nat.pow_add (n := 5), Nat.sub_add_cancel (by omega)]
    have : x.toNat * 32 / 2 ^ count = x.toNat / 2 ^ (count - 5) := by
      rw [← split32, Nat.mul_div_mul_right _ _ (by omega)]
    rw [BitVec.toNat_ofNat, Nat.shiftRight_eq_div_pow, this]

/-- Below a most significant bit that is set, the five bits are what is left of the scaled operand. -/
theorem log2FracIndex_toNat_of_pos (h : 0 < x.toNat) :
    (log2FracIndex x).toNat = x.toNat * 32 / 2 ^ Nat.log2 x.toNat - 32 := by
  have low : 32 ≤ x.toNat * 32 / 2 ^ Nat.log2 x.toNat := by
    rw [Nat.le_div_iff_mul_le (by positivity)]
    have := Nat.log2_self_le h.ne'
    omega
  have high : x.toNat * 32 / 2 ^ Nat.log2 x.toNat < 64 := by
    rw [Nat.div_lt_iff_lt_mul (by positivity)]
    have := Nat.lt_log2_self (n := x.toNat)
    omega
  rw [log2FracIndex_toNat]
  omega

/-- Between two powers of two, the index of the fraction table does not decrease. -/
theorem log2FracIndex_mono (same : Nat.log2 x.toNat = Nat.log2 y.toNat) (h : x.toNat ≤ y.toNat) :
    (log2FracIndex x).toNat ≤ (log2FracIndex y).toNat := by
  by_cases hx : x.toNat = 0
  · simp [log2FracIndex_toNat, hx]
  · rw [log2FracIndex_toNat_of_pos (by omega), log2FracIndex_toNat_of_pos (by omega), same]
    exact Nat.sub_le_sub_right (Nat.div_le_div_right (Nat.mul_le_mul_right 32 h)) 32

/-! ### LOG2 -/

theorem log2Fixed_eq (table : Vector Byte 32) (x : Word) :
    log2Fixed table x = 100 * Nat.log2 x.toNat + table[(log2FracIndex x).toFin].toNat := by
  rw [log2Fixed, msbIndex_eq_log2, Nat.mul_comm]

theorem getElem?_log2FracIndex (table : Vector Byte 32) (x : Word) :
    table[x.toNat * 32 / 2 ^ Nat.log2 x.toNat % 32]? = some table[(log2FracIndex x).toFin] := by
  rw [← log2FracIndex_toNat]
  exact Vector.getElem?_eq_getElem (log2FracIndex x).isLt

theorem exec_log2 (x : Word) (s : State) :
    exec (.log2 x) s = .next (ended s .ok [BitVec.ofNat 32 (log2Fixed s.cfg.log2FracTable x)]) := rfl

/-- LOG2's value is within a word, whatever the table. -/
theorem toNat_log2Fixed (table : Vector Byte 32) (x : Word) :
    (BitVec.ofNat 32 (log2Fixed table x)).toNat = log2Fixed table x := by
  have hmsb := log2_le_31 x
  have hfrac := table[(log2FracIndex x).toFin].isLt
  rw [BitVec.toNat_ofNat, log2Fixed_eq]
  omega

/-- Settles O11: the loop counts up to the most significant bit, and the index is the five bits below it. -/
theorem log2Value : Obligations.Log2Value := fun s x =>
  ⟨_, by rw [exec_log2, log2Fixed_eq], getElem?_log2FracIndex _ x⟩

/-- Settles O12: the bits below the only set bit are 0, and so is entry 0 of the table. -/
theorem log2OfPowersOfTwo : Obligations.Log2OfPowersOfTwo := by
  intro s k entry0 hk
  have hx : (BitVec.ofNat 32 (2 ^ k)).toNat = 2 ^ k := by
    rw [BitVec.toNat_ofNat, Nat.mod_eq_of_lt (Nat.pow_lt_pow_right (by omega) (by omega))]
  have index : 2 ^ k * 32 / 2 ^ k % 32 = 0 := by rw [Nat.mul_div_cancel_left _ (by positivity)]
  obtain ⟨frac, result, hfrac⟩ := log2Value s (BitVec.ofNat 32 (2 ^ k))
  rw [hx, Nat.log2_two_pow] at result hfrac
  rw [index, Vector.getElem?_eq_getElem (by omega), entry0] at hfrac
  cases hfrac
  exact result

/-! ### The default table -/

theorem defaultLog2FracTable_mono : Monotone fun i : Fin 32 => defaultLog2FracTable[i].toNat :=
  Fin.monotone_iff_le_succ.mpr (by decide)

theorem defaultLog2FracTable_le (i : Fin 32) : defaultLog2FracTable[i].toNat ≤ 98 :=
  defaultLog2FracTable_mono (Fin.le_last i)

/-- R153: within one power of two the table decides, and its entries stay below the step of 100 to the next power. -/
theorem log2Fixed_default_mono (h : x.toNat ≤ y.toNat) :
    log2Fixed defaultLog2FracTable x ≤ log2Fixed defaultLog2FracTable y := by
  have msb : Nat.log2 x.toNat ≤ Nat.log2 y.toNat := by
    simpa only [Nat.log2_eq_log_two] using Nat.log_mono_right h
  rw [log2Fixed_eq, log2Fixed_eq]
  obtain less | same := msb.lt_or_eq
  · have := defaultLog2FracTable_le (log2FracIndex x).toFin
    omega
  · rw [same]
    exact Nat.add_le_add_left (defaultLog2FracTable_mono (log2FracIndex_mono same h)) _

theorem log2Fixed_default_le (x : Word) : log2Fixed defaultLog2FracTable x ≤ 3198 := by
  have hmsb := log2_le_31 x
  have hfrac := defaultLog2FracTable_le (log2FracIndex x).toFin
  rw [log2Fixed_eq]
  omega

/-- Settles O13: R153 on the values of the two result words. -/
theorem log2NonDecreasing : Obligations.Log2NonDecreasing := by
  intro s x y hdefault h
  refine ⟨_, _, exec_log2 x s, exec_log2 y s, ?_⟩
  rw [hdefault, toNat_log2Fixed, toNat_log2Fixed]
  exact ⟨log2Fixed_default_mono h, log2Fixed_default_le y⟩

/-! ### LOG10 -/

theorem log10Fixed_eq (table : Vector Byte 32) (x : Word) :
    log10Fixed table x = (100 * log2Fixed table x + 166) / 332 := rfl

theorem exec_log10 (x : Word) (s : State) :
    exec (.log10 x) s = .next (ended s .ok [BitVec.ofNat 32 (log10Fixed s.cfg.log2FracTable x)]) := rfl

theorem log10Fixed_le_log2Fixed (table : Vector Byte 32) (x : Word) : log10Fixed table x ≤ log2Fixed table x := by
  rw [log10Fixed_eq]
  omega

theorem toNat_log10Fixed (table : Vector Byte 32) (x : Word) :
    (BitVec.ofNat 32 (log10Fixed table x)).toNat = log10Fixed table x := by
  have h2 : log2Fixed table x < 2 ^ 32 := toNat_log2Fixed table x ▸ BitVec.isLt _
  rw [BitVec.toNat_ofNat, Nat.mod_eq_of_lt ((log10Fixed_le_log2Fixed table x).trans_lt h2)]

/-- Settles O14: the result word of LOG2 is LOG2's value. -/
theorem log10FromLog2 : Obligations.Log10FromLog2 := fun s x =>
  ⟨_, exec_log2 x s, by rw [exec_log10, log10Fixed_eq, toNat_log2Fixed]⟩

/-- Settles O15: LOG10 is a non-decreasing function of LOG2 (R156). -/
theorem log10NonDecreasing : Obligations.Log10NonDecreasing := by
  intro s x y hdefault h
  refine ⟨_, _, exec_log10 x s, exec_log10 y s, ?_⟩
  rw [hdefault, toNat_log10Fixed, toNat_log10Fixed, log10Fixed_eq, log10Fixed_eq]
  have := log2Fixed_default_mono h
  omega

end Sys2Proof.Proofs
end

section
/-! SEXT (R160), and TLOOKUP with R167's index into a well-formed table (R165, R166). -/

namespace Sys2Proof.Proofs

open Sys2Proof.Machine Sys2Proof.Claims

/-! ### SEXT -/

theorem exec_sext (w : BitVec 6) (v : Word) (s : State) :
    exec (.sext w v) s = .next (ended s .ok [sextWord v w.toNat]) := rfl

/-- R160's two masks. The model shifts the naturals and reads the result as a word. -/
theorem getLsbD_lowMask {w : Nat} (hw : w < 32) (i : Nat) :
    (((1 <<< w : Nat) : Word) - 1).getLsbD i = decide (i < w) := by
  have hpow : 2 ^ w < 2 ^ 32 := Nat.pow_lt_pow_right (by omega) hw
  have shifted : ((1 <<< w : Nat) : Word).toNat = 2 ^ w := by
    rw [BitVec.natCast_eq_ofNat, BitVec.toNat_ofNat, Nat.one_shiftLeft, Nat.mod_eq_of_lt hpow]
  have value : (((1 <<< w : Nat) : Word) - 1).toNat = 2 ^ w - 1 := by
    rw [BitVec.toNat_sub_of_le (by simp only [BitVec.le_def, shifted]; exact Nat.one_le_two_pow), shifted]
    rfl
  rw [BitVec.getLsbD, value, Nat.testBit_two_pow_sub_one]

theorem getLsbD_highMask (w : Nat) {i : Nat} (hi : i < 32) :
    ((0xFFFFFFFF <<< w : Nat) : Word).getLsbD i = decide (w ≤ i) := by
  have ones : 0xFFFFFFFF = 2 ^ 32 - 1 := rfl
  have inside : i - w < 32 := by omega
  rw [BitVec.natCast_eq_ofNat, BitVec.getLsbD_ofNat, Nat.testBit_shiftLeft, ones, Nat.testBit_two_pow_sub_one]
  simp [hi, inside]

/-- R160: the bits above the low ones are set or cleared as the highest of the low bits is. -/
theorem sextWord_eq_signExtend (v : Word) {w : Nat} (h1 : 1 ≤ w) (h31 : w ≤ 31) :
    sextWord v w = (v.setWidth w).signExtend 32 := by
  have msb : (v.setWidth w).msb = v.getLsbD (w - 1) := by
    rw [BitVec.msb_setWidth, decide_eq_true (by omega), Bool.true_and]
  rw [sextWord, if_neg (by omega)]
  apply BitVec.eq_of_getLsbD_eq
  intro i hi
  rw [BitVec.getLsbD_signExtend, msb, BitVec.getLsbD_setWidth]
  split
  next neg =>
    rw [BitVec.getLsbD_or, getLsbD_highMask w hi]
    by_cases low : i < w <;> simp [low, hi, neg]
    omega
  next pos =>
    rw [BitVec.getLsbD_and, getLsbD_lowMask (by omega)]
    by_cases low : i < w <;> simp [low, hi, pos]

/-- Settles O16: a sign extension keeps the value as a signed integer. -/
theorem sextReadsTwosComplement : Obligations.SextReadsTwosComplement := by
  intro s w v
  refine ⟨_, exec_sext w v s, fun ⟨h1, h31⟩ => ?_, fun h => if_pos h⟩
  rw [sextWord_eq_signExtend v h1 h31, BitVec.toInt_signExtend_of_le (by omega), BitVec.toInt_setWidth]

/-! ### R167's index -/

/-- The order of a well-formed table's entries (R166). -/
def HigherCode (a b : CnrEntry) : Prop := b.code.toNat < a.code.toNat

section Index

variable {tab rest : List CnrEntry} {a e : CnrEntry} {p q : Word} {i j : Nat}

theorem lookupIndex_zero (h : ∀ f ∈ rest, f.code.toNat < q.toNat) : LookupIndex (e :: rest) q 0 := by
  refine ⟨by simp, .inl rfl, fun k f hk hf => ?_⟩
  obtain ⟨k, rfl⟩ := Nat.exists_eq_succ_of_ne_zero hk.ne'
  exact h f (List.mem_of_getElem? hf)

theorem lookupIndex_succ (reached : q.toNat ≤ a.code.toNat) (h : LookupIndex (a :: rest) q j) :
    LookupIndex (e :: a :: rest) q (j + 1) := by
  obtain ⟨hlen, hat, hafter⟩ := h
  refine ⟨by simpa using hlen, .inr ?_, fun k f hk hf => ?_⟩
  · obtain rfl | found := hat
    · exact ⟨a, rfl, reached⟩
    · exact found
  · obtain ⟨k, rfl⟩ := Nat.exists_eq_succ_of_ne_zero (Nat.ne_zero_of_lt hk)
    exact hafter k f (Nat.lt_of_succ_lt_succ hk) hf

/-- R167: the index does not increase with the query. -/
theorem lookupIndex_antitone (hp : LookupIndex tab p i) (hq : LookupIndex tab q j) (h : p.toNat ≤ q.toNat) :
    j ≤ i := by
  obtain ⟨-, -, hafter⟩ := hp
  obtain ⟨-, rfl | ⟨e, he, hcode⟩, -⟩ := hq
  · exact Nat.zero_le i
  · by_contra skipped
    have := hafter j e (Nat.lt_of_not_le skipped) he
    omega

theorem code_lt_of_index_lt (dec : tab.Pairwise HigherCode) (h : i < j) (hi : tab[i]? = some a)
    (hj : tab[j]? = some e) : e.code.toNat < a.code.toNat := by
  obtain ⟨_, rfl⟩ := List.getElem?_eq_some_iff.mp hi
  obtain ⟨_, rfl⟩ := List.getElem?_eq_some_iff.mp hj
  exact List.pairwise_iff_getElem.mp dec i j _ _ h

/-- R167: no index is skipped. Two codes are at least 1 apart, so two of them do not fit between adjacent queries. -/
theorem lookupIndex_no_skip (dec : tab.Pairwise HigherCode) (hp : LookupIndex tab p i)
    (hq : LookupIndex tab q j) (adjacent : q.toNat = p.toNat + 1) : i ≤ j + 1 := by
  obtain ⟨hlen, rfl | ⟨e, he, hcode⟩, -⟩ := hp
  · exact Nat.zero_le _
  · obtain ⟨-, -, hafter⟩ := hq
    by_contra skipped
    have hnext : tab[j + 1]? = some tab[j + 1] := List.getElem?_eq_getElem (by omega)
    have := hafter (j + 1) _ (by omega) hnext
    have := code_lt_of_index_lt dec (Nat.lt_of_not_le skipped) hnext he
    omega

end Index

/-! ### TLOOKUP -/

theorem codesDecrease_iff (tab : List CnrEntry) : codesDecrease tab = true ↔ tab.Pairwise HigherCode := by
  have : Trans HigherCode HigherCode HigherCode := ⟨fun hab hbc => Nat.lt_trans hbc hab⟩
  refine Iff.trans ?_ List.isChain_iff_pairwise
  induction tab with
  | nil => simp [codesDecrease]
  | cons a rest ih =>
    cases rest with
    | nil => simp [codesDecrease]
    | cons b rest => rw [codesDecrease, Bool.and_eq_true, ih, List.isChain_cons_cons, decide_eq_true_iff, HigherCode]

/-- The scan of R165 ends at R167's index: the first code below the query ends it, and every later code is lower
still. -/
theorem scanTable_lookupIndex (q : Word) {e : CnrEntry} {rest : List CnrEntry} (dec : rest.Pairwise HigherCode) :
    ∃ j, LookupIndex (e :: rest) q j ∧ ∃ f, (e :: rest)[j]? = some f ∧ scanTable e.value q rest = f.value := by
  induction rest generalizing e with
  | nil => exact ⟨0, lookupIndex_zero nofun, e, rfl, rfl⟩
  | cons a rest ih =>
    obtain ⟨below_a, dec_rest⟩ := List.pairwise_cons.mp dec
    rw [scanTable]
    split
    next below =>
      refine ⟨0, lookupIndex_zero fun f hf => ?_, e, rfl, rfl⟩
      obtain rfl | hf := List.mem_cons.mp hf
      · exact below
      · exact (below_a f hf).trans below
    next reached =>
      obtain ⟨j, hj, f, hf, hvalue⟩ := ih (e := a) dec_rest
      exact ⟨j + 1, lookupIndex_succ (Nat.le_of_not_lt reached) hj, f, hf, hvalue⟩

theorem exec_tlookup {s : State} {id : Byte} {e : CnrEntry} {rest : List CnrEntry}
    (h : s.cfg.cnrTables[id.toNat]? = some (e :: rest)) (q : Word) :
    exec (.tlookup id q) s = .next (ended s .ok [scanTable e.value q rest]) := by
  simp only [exec, execTlookup, h]
  rfl

/-- Settles O17: the scan ends at R167's index, which is antitone in the query and skips none. -/
theorem tlookupIndex : Obligations.TlookupIndex := by
  intro s id tab htab wf
  obtain ⟨nonempty, codes⟩ := (Bool.and_eq_true _ _).mp wf
  cases tab with
  | nil => cases nonempty
  | cons e rest =>
    have dec := (codesDecrease_iff _).mp codes
    have scan (q : Word) := scanTable_lookupIndex q (e := e) (List.pairwise_cons.mp dec).2
    choose j index f found value using scan
    refine ⟨j, fun q => ⟨index q, f q, found q, ?_⟩, fun p q => lookupIndex_antitone (index p) (index q),
      fun p q => lookupIndex_no_skip dec (index p) (index q)⟩
    rw [exec_tlookup htab, value]

end Sys2Proof.Proofs
end

section
/-! PWL (R170, R171) and PERCALC (R175, R176), with the division each rounds by (R10, R177). -/

namespace Sys2Proof.Proofs

open Sys2Proof.Machine Sys2Proof.Claims

/-- R336 in a block that was not faulted: the reason is the new one. -/
theorem raiseFault_eq_faultedWith {s : State} (h : s.faultReason = none) (r : FaultReason) :
    raiseFault r s = faultedWith s r := by
  rw [raiseFault, faultedWith, h, Option.getD_none]

/-! ### Truncated division and the i32 range -/

/-- Constructor by constructor: the signs decide the branch, and the quotient of the absolute values is left. -/
theorem tdiv_eq_truncatedQuotient (a b : Int) : tdiv a b = truncatedQuotient a b := by
  unfold tdiv truncatedQuotient
  cases a with
  | ofNat m =>
    cases b with
    | ofNat n => rw [if_pos (by simp [Int.not_lt.mpr])]; rfl
    | negSucc n => rw [if_neg (by simp [Int.negSucc_lt_zero])]; rfl
  | negSucc m =>
    cases b with
    | ofNat n => rw [if_neg (by simp [Int.negSucc_lt_zero])]; rfl
    | negSucc n => rw [if_pos (by simp [Int.negSucc_lt_zero])]; rfl

theorem toI32_of_inI32 {n : Int} (h : InI32 n) : toI32 n = .value n := by
  obtain ⟨lo, hi⟩ := h
  exact if_pos ⟨lo, by omega⟩

theorem toI32_of_not_inI32 {n : Int} (h : ¬InI32 n) : toI32 n = .fault .resultRange :=
  if_neg fun ⟨lo, hi⟩ => h ⟨lo, by omega⟩

theorem toInt_bits32 {n : Int} (h : InI32 n) : (bits32 n).toInt = n :=
  BitVec.toInt_ofInt_eq_self (by omega) h.1 h.2

/-! ### PWL -/

theorem pwlEval_of_none {v : Int} {model : List PwlSegment}
    (h : ∀ g ∈ model, ¬(g.lo.toInt ≤ v ∧ v < g.hi.toInt)) : pwlEval v model = .fault .pwlNoSegment := by
  induction model with
  | nil => rfl
  | cons g rest ih =>
    obtain ⟨hg, hrest⟩ := List.forall_mem_cons.mp h
    rw [pwlEval, if_neg hg, ih hrest]

theorem pwlEval_of_first {v : Int} {model : List PwlSegment} {g : PwlSegment} (h : FirstSegment model v g)
    (hden : g.den ≠ 0) :
    pwlEval v model =
      toI32 (g.ic.toInt - truncatedQuotient ((v - g.lo.toInt) * g.num.toInt) g.den.toInt) := by
  obtain ⟨before, after, rfl, inside, hbefore⟩ := h
  induction before with
  | nil => rw [List.nil_append, pwlEval, if_pos inside, if_neg hden, tdiv_eq_truncatedQuotient]
  | cons b before ih =>
    obtain ⟨hb, hrest⟩ := List.forall_mem_cons.mp hbefore
    rw [List.cons_append, pwlEval, if_neg hb, ih hrest]

theorem den_ne_zero_of_wf {model : List PwlSegment} {g : PwlSegment} (wf : pwlModelWf model = true) (hg : g ∈ model) :
    g.den ≠ 0 := by
  simp only [pwlModelWf, PwlSegment.wf, Bool.and_eq_true, List.all_eq_true, bne_iff_ne] at wf
  obtain ⟨-, segments⟩ := wf
  exact (segments g hg).2

theorem firstSegment_mem {model : List PwlSegment} {v : Int} {g : PwlSegment} (h : FirstSegment model v g) :
    g ∈ model := by
  obtain ⟨before, after, rfl, -, -⟩ := h
  simp

theorem exec_pwl {s : State} {id : Byte} {model : List PwlSegment} (h : s.cfg.pwlModels[id.toNat]? = some model)
    (v : Word) : exec (.pwl id v) s = finish ((pwlEval v.toInt model).bind fun n => .value [bits32 n]) s := by
  simp only [exec, execPwl, h]

/-- Settles O18: the first segment that contains the value gives PWL's integer, and then its range decides. -/
theorem pwlFirstSegment : Obligations.PwlFirstSegment := by
  intro s id v model hmodel wf hs
  rw [exec_pwl hmodel]
  refine ⟨?_, fun outside => ?_⟩
  · rintro g n first rfl
    rw [pwlEval_of_first first (den_ne_zero_of_wf wf (firstSegment_mem first))]
    refine ⟨fun inRange => ⟨_, toInt_bits32 inRange, ?_⟩, fun outOfRange => ?_⟩
    · rw [toI32_of_inI32 inRange]
      rfl
    · rw [toI32_of_not_inI32 outOfRange, ← raiseFault_eq_faultedWith hs]
      rfl
  · rw [pwlEval_of_none outside, ← raiseFault_eq_faultedWith hs]
    rfl

/-! ### Rounded division -/

/-- R177: the remainder says whether a quotient rounds up. -/
theorem rdiv_eq_roundedQuotient (n : Nat) {d : Nat} (hd : 0 < d) : rdiv n d = roundedQuotient n d := by
  have split : 2 * n + d = (2 * (n % d) + d) + 2 * d * (n / d) := by
    have := Nat.mod_add_div n d
    linarith
  have hr := Nat.mod_lt n hd
  rw [rdiv, roundedQuotient, split, Nat.add_mul_div_left _ _ (by omega), Nat.add_comm]
  congr 1
  split
  next up => exact (Nat.div_eq_of_lt_le (by omega) (by omega)).symm
  next down => exact (Nat.div_eq_of_lt (by omega)).symm

/-- R175's two stages divide `e × 10^6`: the first stage's quotient is scaled, and its remainder divided again. -/
theorem twoStage_eq_rdiv (e w : Nat) (hw : 0 < w) :
    e * 1000 / w * 1000 + e * 1000 % w * 1000 / w + (if w ≤ 2 * (e * 1000 % w * 1000 % w) then 1 else 0) =
      rdiv (e * 1000000) w := by
  have split : e * 1000000 = e * 1000 % w * 1000 + w * (e * 1000 / w * 1000) := by
    have := Nat.mod_add_div (e * 1000) w
    linarith
  rw [rdiv, split, Nat.add_mul_div_left _ _ hw, Nat.add_mul_mod_self_left, Nat.add_comm (_ / w)]

/-! ### PERCALC -/

/-- R175: the three results that must fit in a word. -/
def PerOverflow (e w : Nat) : Prop :=
  2 ^ 32 ≤ e * 1000 ∨ 2 ^ 32 ≤ e * 1000 % w * 1000 ∨ 2 ^ 32 ≤ roundedQuotient (e * 1000000) w

theorem perCalc_zero (e : Nat) : perCalc e 0 = .fault .perDivZero := rfl

/-- The three tests of R175 in their order, each failed one an overflow. -/
theorem perCalc_eq (e : Nat) {w : Nat} (hw : w ≠ 0) :
    perCalc e w =
      if 2 ^ 32 ≤ e * 1000 then .fault .perOverflow
      else if 2 ^ 32 ≤ e * 1000 % w * 1000 then .fault .perOverflow
      else if 2 ^ 32 ≤ roundedQuotient (e * 1000000) w then .fault .perOverflow
      else .value (roundedQuotient (e * 1000000) w) := by
  have pos : 0 < w := Nat.pos_of_ne_zero hw
  rw [← rdiv_eq_roundedQuotient _ pos, ← twoStage_eq_rdiv e w pos, perCalc, if_neg hw]
  rfl

theorem perCalc_of_overflow {e w : Nat} (hw : w ≠ 0) (h : PerOverflow e w) : perCalc e w = .fault .perOverflow := by
  rw [perCalc_eq e hw]
  split
  next => rfl
  next fits1 =>
    split
    next => rfl
    next fits2 => exact if_pos ((h.resolve_left fits1).resolve_left fits2)

theorem perCalc_of_not_overflow {e w : Nat} (hw : w ≠ 0) (h : ¬PerOverflow e w) :
    perCalc e w = .value (roundedQuotient (e * 1000000) w) := by
  obtain ⟨stage1, stage2, result⟩ : _ ∧ _ ∧ _ := by simpa only [PerOverflow, not_or] using h
  rw [perCalc_eq e hw, if_neg stage1, if_neg stage2, if_neg result]

theorem exec_percalc (e w : Word) (s : State) :
    exec (.percalc e w) s = finish ((perCalc e.toNat w.toNat).bind fun q => .value [BitVec.ofNat 32 q]) s := rfl

theorem toNat_ne_zero {w : Word} (h : w ≠ 0) : w.toNat ≠ 0 := fun hz => h (BitVec.eq_of_toNat_eq hz)

/-- Settles O19: the two stages, when each fits in a word, make the rounded quotient. -/
theorem percalcOutcome : Obligations.PercalcOutcome := by
  intro s e w hs
  rw [exec_percalc]
  refine ⟨?_, fun hw overflow => ?_, fun hw fits => ?_⟩
  · rintro rfl
    rw [← raiseFault_eq_faultedWith hs]
    rfl
  · rw [perCalc_of_overflow (toNat_ne_zero hw) overflow, ← raiseFault_eq_faultedWith hs]
    rfl
  · rw [perCalc_of_not_overflow (toNat_ne_zero hw) fits]
    rfl

/-- Settles O20: of the outcomes of O19 only the last is no fault, and there the rounded quotient fits in a word. -/
theorem percalcRoundsToNearest : Obligations.PercalcRoundsToNearest := by
  intro s t e w hs h ht
  obtain ⟨zero, overflows, fits⟩ := percalcOutcome s e w hs
  by_cases hw : w = 0
  · rw [zero hw] at h
    cases h
    cases ht
  · by_cases overflow : PerOverflow e.toNat w.toNat
    · rw [overflows hw overflow] at h
      cases h
      cases ht
    · rw [fits hw overflow] at h
      cases h
      have bound : roundedQuotient (e.toNat * 1000000) w.toNat < 2 ^ 32 :=
        Nat.lt_of_not_le fun result => overflow (.inr (.inr result))
      refine ⟨_, rfl, ?_⟩
      rw [BitVec.toNat_ofNat, Nat.mod_eq_of_lt bound, roundedQuotient, Nat.mul_assoc]

end Sys2Proof.Proofs
end

section
/-! Listed answers of the repeater calls (R36, R220): the opening, the closing and the abandoning of a bracket by what the
environment answers, and the outcome of accesses that leave REP as it is. -/

namespace Sys2Proof.Proofs

open Sys2Proof.Machine Sys2Proof.Claims

variable {α : Type} {s : State} {es : List Event} {x : α} {res : Res α} {a : BusAddr}

/-- A repeater call whose answer is listed: REP follows only a call that succeeds (R36). -/
theorem setRepeater_state (b : Bool) {ans : Answer} (h : s.env[0]? = some ans) :
    (setRepeater b s).state = { s with
      rep := if ans.isOk then b else s.rep
      env := s.env.drop 1
      history := s.history ++ [.setRepeater b ans.isOk] } := by
  obtain ⟨answer, -, drawn⟩ := answer_of_listed h
  obtain ⟨isOk, ends⟩ | ⟨isErr, ends⟩ := setRepeater_cases b s
  · rw [answer] at isOk
    simp [ends, Res.state, drawn, State.record, isOk]
  · rw [answer] at isErr
    simp [ends, Res.state, drawn, State.record, isErr]

theorem abandonRepeater_eq {ans : Answer} (h : s.env[0]? = some ans) :
    abandonRepeater s = { s with
      rep := if ans.isOk then false else s.rep
      env := s.env.drop 1
      history := s.history ++ [.setRepeater false ans.isOk] } :=
  setRepeater_state false h

theorem setRepeater_of_ok (b : Bool) {b0 b1 b2 b3 : Byte} {rest : List Answer} (h : s.env = .ok b0 b1 b2 b3 :: rest) :
    setRepeater b s = .ok () { s with rep := b, env := rest, history := s.history ++ [.setRepeater b true] } := by
  rw [setRepeater, State.answer_of_env s h, State.drawn_of_env s h]
  rfl

theorem setRepeater_of_err (b : Bool) {rest : List Answer} (h : s.env = .err :: rest) :
    setRepeater b s = .err { s with env := rest, history := s.history ++ [.setRepeater b false] } := by
  rw [setRepeater, State.answer_of_env s h, State.drawn_of_env s h]
  rfl

theorem openRepeater_of_ok {b0 b1 b2 b3 : Byte} {rest : List Answer} (h : s.env = .ok b0 b1 b2 b3 :: rest) :
    openRepeater s = .ok () { s with rep := true, env := rest, history := s.history ++ [.setRepeater true true] } := by
  rw [openRepeater, setRepeater_of_ok true h]

/-- A repeater-on that fails is followed by one attempt to switch the repeater off (R220). -/
theorem openRepeater_of_err {ans : Answer} {rest : List Answer} (h : s.env = .err :: ans :: rest) :
    openRepeater s = .err { s with
      rep := if ans.isOk then false else s.rep
      env := rest
      history := s.history ++ [.setRepeater true false, .setRepeater false ans.isOk] } := by
  simp only [openRepeater, setRepeater_of_err true h]
  rw [setRepeater_state false (ans := ans) rfl]
  simp

/-! ### Accesses leave REP as it is -/

theorem Performs.ok_of_accessOnly (h : Performs s es x res) (access : AccessOnly a s res.state)
    (hall : AllOk s es.length) :
    res = .ok x { s with env := s.env.drop es.length, history := s.history ++ es } := by
  have done := h.succeeds hall
  rw [done] at access
  rw [done, tookListed_of_rep access.rep]

theorem Performs.err_of_accessOnly (h : Performs s es x res) (access : AccessOnly a s res.state) {k : Nat} {e : Event}
    (hall : AllOk s k) (hk : s.env[k]? = some .err) (he : es[k]? = some e) :
    res = .err { s with env := s.env.drop (k + 1), history := s.history ++ es.take k ++ [failedEvent e] } := by
  have failed := h.fails k e hall hk he
  have hlt : k < es.length := (List.getElem?_eq_some_iff.mp he).1
  rw [failed] at access
  rw [failed, tookListed_of_rep access.rep, List.length_append, List.length_take_of_le hlt.le, ← List.append_assoc]
  rfl

/-! ### A bracket that fails -/

theorem openRepeater_of_allOk {n : Nat} (h : AllOk s (n + 1)) :
    openRepeater s = .ok () (tookListed s [.setRepeater true true]) := by
  rw [openRepeater, (setRepeater_performs true s).succeeds (allOk_mono h (by simp))]

theorem closeRepeater_of_err (h : s.env[0]? = some .err) : closeRepeater s = .err (abandonRepeater s) := by
  obtain ⟨answer, -, -⟩ := answer_of_listed h
  simp only [closeRepeater, abandonRepeater, setRepeater, answer, Res.state]

/-- A body that fails in an open bracket is followed by the repeater-off call, whatever that answers (R220). -/
theorem withRepeater_of_body_err {p : State → Res Unit} {t : State} {n : Nat} (hall : AllOk s (n + 1))
    (body : p (tookListed s [.setRepeater true true]) = .err t) : withRepeater p s = .err (abandonRepeater t) := by
  simp only [withRepeater, openRepeater_of_allOk hall, body]

theorem withRepeater_of_close_err {p : State → Res Unit} {t : State} {n : Nat} (hall : AllOk s (n + 1))
    (body : p (tookListed s [.setRepeater true true]) = .ok () t) (h : t.env[0]? = some .err) :
    withRepeater p s = .err (abandonRepeater t) := by
  simp only [withRepeater, openRepeater_of_allOk hall, body, closeRepeater_of_err h]

/-- Settles O28: the opening, the access or the closing fails. The last two end in the repeater-off call, from the state that
the access leaves with REP at 1. -/
theorem tunerBitFieldFailure : Obligations.TunerBitFieldFailure := by
  intro s bank reg val mask events
  have access := accessAt_performs .tuner bank reg val mask (tookListed s [.setRepeater true true])
  have only := accessAt_accessOnly (s.cfg.addr .tuner) bank reg val mask (tookListed s [.setRepeater true true])
  have byteRead : answerAt (tookListed s [.setRepeater true true]) (readAnswer 0 bank) =
      answerAt s (readAnswer 1 bank) := by simp [readAnswer]
  rw [byteRead, tookListed_cfg] at access
  have inBody {n : Nat} (hall : AllOk s (n + 1)) : AllOk (tookListed s [.setRepeater true true]) n :=
    allOk_tookListed (by rwa [List.length_singleton, Nat.add_comm])
  simp only [exec_bitFieldCommand, onTarget]
  refine ⟨fun ans rest henv => ?_, fun k e ans hall hk he hans => ?_, fun hall herr => ?_⟩
  · simp only [withRepeater, openRepeater_of_err henv]
    rfl
  · have failed := access.err_of_accessOnly only (inBody hall) (by simpa [Nat.add_comm 1] using hk) he
    rw [withRepeater_of_body_err hall failed, abandonRepeater_eq (ans := ans) (by simpa [Nat.add_comm 1] using hans)]
    cases hok : ans.isOk <;>
      simp [finishBits, raiseStatus, respond, ended, tookListed, repAfterAll, repAfter, events]
  · have body := access.ok_of_accessOnly only (inBody (by rwa [length_accessEvents]))
    rw [length_accessEvents] at body
    rw [withRepeater_of_close_err hall body (by simpa [Nat.add_comm 1] using herr),
      abandonRepeater_eq (ans := .err) (by simpa [Nat.add_comm 1] using herr)]
    simp [finishBits, raiseStatus, respond, ended, tookListed, repAfterAll, repAfter, events, Answer.isOk]

end Sys2Proof.Proofs
end

section
/-! ROM entries (R200, R203 to R209, R226, R340): the entry's primitives with listed answers, and how the running command goes
on or ends after them. -/

namespace Sys2Proof.Proofs

open Sys2Proof.Machine Sys2Proof.Claims

variable {s : State} {r : Run}

/-! ### The byte of a WRV (R205) -/

theorem sourceByte_eq_some {c : Config} {src : Source} {v : Byte} (h : SourceByte c r src v) :
    sourceByte c r src = some v := by
  cases src with
  | freqw0 | freqw1 | freqw2 =>
    obtain ⟨w, hw, hv⟩ := h
    rw [sourceByte, hw, Option.map_some, Option.some_inj, ← BitVec.toNat_inj, BitVec.extractLsb'_toNat, hv]
    omega
  | bandp k | tunerbw k =>
    obtain ⟨b, hb, hv⟩ := h
    obtain ⟨_, hv⟩ := Vector.getElem?_eq_some_iff.mp hv
    simp only [sourceByte, hb, Option.map_some, Option.some.injEq]
    exact hv
  | clockMode | dutyMode | period | ifClockSelect =>
    obtain ⟨t, ht, rfl⟩ := h
    simp only [sourceByte, ht, Option.map_some]

theorem sourceByte_eq_none (c : Config) {src : Source} (h : SourceUnset r src) : sourceByte c r src = none := by
  cases src <;> exact Option.map_eq_none_iff.mpr h

/-! ### What an entry does in a running sequence -/

theorem inSequence_of_run (hr : s.run = some r) (f : Run → Host.Outcome State Fault Refusal) : inSequence s f = f r := by
  rw [inSequence, hr]

/-- WR, and WRV where its source is valid, make one masked access. -/
theorem exec_of_write (hr : s.run = some r) {a : Access} {i : Instr} {v : Byte}
    (h : i = .wr a v ∨ ∃ src, i = .wrv a src ∧ SourceByte s.cfg r src v) :
    exec i s = .next (afterAccess r (accessOp a v s)) := by
  obtain rfl | ⟨src, rfl, hsrc⟩ := h
  · exact inSequence_of_run hr _
  · exact (inSequence_of_run hr _).trans (by rw [sourceByte_eq_some hsrc])

theorem exec_pollz (hr : s.run = some r) (a : Access) :
    exec (.pollz a) s = .next (afterPoll a.mask r (readEntry a s)) :=
  inSequence_of_run hr _

theorem exec_rdsel_of_err (hr : s.run = some r) {a : Access} {t : State} (hm : a.mask ≠ 0) (h : readEntry a s = .err t) :
    exec (.rdsel a) s = .next (failSequence .hardwareIoError r t) :=
  (inSequence_of_run hr _).trans (by rw [if_neg hm, h])

theorem exec_rdsel_of_ok (hr : s.run = some r) {a : Access} {t : State} {b : Byte} {tuple : TsTuple} (hm : a.mask ≠ 0)
    (h : readEntry a s = .ok b t) (ht : t.cfg.tsclkTable[tsIndex b a.mask]? = some tuple) :
    exec (.rdsel a) s = .next (advance { r with tstuple := some tuple } t) :=
  (inSequence_of_run hr _).trans (by rw [if_neg hm, h]; simp only [ht])

/-- Settles O44: `Src` gives no byte, and the fault is the first one. -/
theorem wrvSourceUnsetFaults : Obligations.WrvSourceUnsetFaults := by
  intro s r a src hr hfault unset
  calc exec (.wrv a src) s
      = .next (raiseFault .wrvSourceUnset s) :=
        (inSequence_of_run hr _).trans (by rw [sourceByte_eq_none s.cfg unset])
    _ = .next (faultedWith s .wrvSourceUnset) := by rw [raiseFault_eq_faultedWith hfault]

/-- Settles O46: one event is recorded, and the index advances. -/
theorem delayAndHookComplete : Obligations.DelayAndHookComplete := by
  intro s r hr
  exact ⟨fun _ => inSequence_of_run hr _, fun _ _ => inSequence_of_run hr _⟩

/-! ### Its primitives -/

theorem accessOp_eq_accessAt (a : Access) (v : Byte) (s : State) :
    accessOp a v s = accessAt (s.cfg.addr a.tgt) a.bank a.reg v a.mask s := by
  obtain ⟨bank, _, _, _⟩ := a
  cases bank <;> rfl

theorem accessOp_performs (a : Access) (v : Byte) (s : State) :
    Performs s (accessEvents s.cfg a.tgt a.bank a.reg v a.mask (byte0 (answerAt s (readAnswer 0 a.bank)))) ()
      (accessOp a v s) := by
  rw [accessOp_eq_accessAt]
  exact accessAt_performs ..

/-- The byte ReadEntry reads: of the first answer, or of the one after a bank select's (R200). -/
def entryByte (s : State) (a : Access) : Byte := byte0 (answerAt s (readAnswer 0 a.bank))

/-- The event of a bank select, for a banked access only (R200). -/
def selectEvents (c : Config) (a : Access) : List Event :=
  match a.bank with
  | some b => [.busWrite (addressOf c a.tgt) c.bankSelectReg [b] true]
  | none => []

/-- The events of ReadEntry when every primitive succeeds (R200). -/
def readEvents (s : State) (a : Access) : List Event :=
  selectEvents s.cfg a ++ [.busRead (addressOf s.cfg a.tgt) a.reg 1 (some [entryByte s a])]

theorem length_readEvents (s : State) (a : Access) : (readEvents s a).length = readAnswer 1 a.bank := by
  obtain ⟨bank, _, _, _⟩ := a
  cases bank <;> rfl

theorem readEntry_performs (a : Access) (s : State) : Performs s (readEvents s a) (entryByte s a) (readEntry a s) := by
  obtain ⟨bank, tgt, reg, mask⟩ := a
  have read := readByte_performs (s.cfg.addr tgt) reg
  simp only [readEvents, selectEvents, addressOf_eq_addr]
  cases bank with
  | none => exact (performs_nil s ()).bind (read _)
  | some b =>
    have select := busWrite_performs (s.cfg.addr tgt) s.cfg.bankSelectReg b s
    have read := read (tookListed s [.busWrite (s.cfg.addr tgt) s.cfg.bankSelectReg [b] true])
    rw [answerAt_tookListed] at read
    exact select.bind read

/-! ### A failed entry (R226, R340) -/

theorem failSequence_outside (st : Status) (h : r.phase.inBracket = false) (s : State) :
    failSequence st r s = ended s st [] := by
  simp [failSequence, h, raiseStatus, respond, ended]

theorem failSequence_inside (st : Status) (h : r.phase.inBracket = true) {b : Answer} (hb : s.env[0]? = some b) :
    failSequence st r s = ended { s with
      rep := if b.isOk then false else s.rep
      env := s.env.drop 1
      history := s.history ++ [.setRepeater false b.isOk] } st [] := by
  simp [failSequence, h, abandonRepeater_eq hb, raiseStatus, respond, ended]

/-- The state in which a procedure stops whose primitive number `k` fails, `es` being its events where none fails and `e` the
one that does. -/
def stoppedAt (s : State) (es : List Event) (k : Nat) (e : Event) : State :=
  { s with env := s.env.drop (k + 1), history := s.history ++ es.take k ++ [failedEvent e] }

/-- An entry whose primitive fails ends the command as a failed entry does, whatever its kind. -/
theorem exec_entry_of_err {a : Access} {i : Instr} {k : Nat} {e : Event} {events : List Event} (hr : s.run = some r)
    (h : EntryEvents s r a i events) (hall : AllOk s k) (hk : s.env[k]? = some .err) (he : events[k]? = some e) :
    exec i s = .next (failSequence .hardwareIoError r (stoppedAt s events k e)) := by
  obtain ⟨v, write, rfl⟩ | ⟨read, hev⟩ := h
  · have failed := (accessOp_performs a v s).err_of_accessOnly (accessOp_accessOnly a v s) hall hk he
    rw [exec_of_write hr write, failed]
    rfl
  · obtain rfl : events = readEvents s a := hev
    have failed := (readEntry_performs a s).err_of_accessOnly (readEntry_accessOnly a s) hall hk he
    obtain rfl | ⟨rfl, hm⟩ := read
    · rw [exec_pollz hr, failed]
      rfl
    · exact exec_rdsel_of_err hr hm failed

/-- Settles O45: outside a bracket the command ends there, and inside one after the repeater-off call. -/
theorem entriesStopAtFirstFailure : Obligations.EntriesStopAtFirstFailure := by
  intro s r a i k e events hr h hall hk he
  have stops := exec_entry_of_err hr h hall hk he
  refine ⟨fun outside => ?_, fun b inside hb => ?_⟩
  · rw [stops, failSequence_outside _ outside]
    rfl
  · rw [stops, failSequence_inside _ inside (b := b) (by simpa [stoppedAt] using hb)]
    simp [stoppedAt, ended]

/-! ### An entry whose primitives succeed -/

/-- Settles O43: WR and WRV make the same access, with the entry's byte. -/
theorem writeEntriesComplete : Obligations.WriteEntriesComplete := by
  intro s r a v i hr write hall
  have done := (accessOp_performs a v s).ok_of_accessOnly (accessOp_accessOnly a v s) (by rwa [length_accessEvents])
  rw [length_accessEvents] at done
  rw [exec_of_write hr write, done]
  rfl

theorem ctzNat_eq {fuel m n : Nat} (hm : m < fuel) (h : n % 2 ^ (m + 1) = 2 ^ m) : ctzNat fuel n = m := by
  induction fuel generalizing m n with
  | zero => omega
  | succ fuel ih =>
    cases m with
    | zero => rw [ctzNat, if_pos (by simpa using h)]
    | succ m =>
      have even : n % 2 = 0 := by
        rw [← Nat.mod_mod_of_dvd n (dvd_pow_self 2 (Nat.succ_ne_zero _)), h, Nat.pow_succ, Nat.mul_mod_left]
      have half : n / 2 % 2 ^ (m + 1) = 2 ^ m := by
        rw [← Nat.mod_mul_right_div_self, ← Nat.pow_succ', h, Nat.pow_succ, Nat.mul_div_cancel _ (by decide)]
      rw [ctzNat, if_neg (by omega), ih (by omega) half]

/-- The lowest set bit of a mask, as R207 counts it. -/
theorem ctz_eq {mask : Byte} {m : Nat} (h : mask.toNat % 2 ^ (m + 1) = 2 ^ m) : ctz mask = m := by
  have bit : 2 ^ m < 2 ^ 8 := (h ▸ Nat.mod_le _ _).trans_lt mask.isLt
  exact ctzNat_eq ((Nat.pow_lt_pow_iff_right (by decide)).mp bit) h

/-- Settles O47: ReadEntry gives the byte, and then POLLZ judges it and RDSEL selects by it. -/
theorem readEntriesComplete : Obligations.ReadEntriesComplete := by
  intro s r a hr hall addr byte read
  have done : readEntry a s = .ok byte read := by
    rw [(readEntry_performs a s).ok_of_accessOnly (readEntry_accessOnly a s) (by rwa [length_readEvents]),
      length_readEvents, readEvents, ← List.append_assoc]
    rfl
  rw [exec_pollz hr, done]
  refine ⟨fun clear => ?_, fun set outside => ?_, fun b set inside hb => ?_, fun m tuple hm ht => ?_⟩
  · rw [afterPoll, if_pos clear]
    rfl
  · rw [afterPoll, if_neg set, failSequence_outside _ outside]
  · have next : readAnswer 1 a.bank + 1 = readAnswer 2 a.bank := by unfold readAnswer; omega
    rw [afterPoll, if_neg set, failSequence_inside _ inside (b := b) (by simpa [read] using hb)]
    simp [read, ended, next]
  · have hmask : a.mask ≠ 0 := by
      intro h
      rw [h] at hm
      exact absurd hm (Nat.two_pow_pos m).ne
    rw [exec_rdsel_of_ok hr hmask done (tuple := tuple)
      (by rw [tsIndex, ctz_eq hm, Nat.shiftRight_eq_div_pow]; exact ht)]
    rfl

end Sys2Proof.Proofs
end

section
/-! What follows the END of a tune's sequences (R220, R221, R224, R255, R258, R259), by the environment's listed answers. -/

namespace Sys2Proof.Proofs

open Sys2Proof.Machine Sys2Proof.Claims

variable {s : State} {r : Run} {req : TuneReq}

theorem exec_endSeq (hr : s.run = some r) : exec .endSeq s = .next (afterSequence r s) := inSequence_of_run hr _

theorem freqWord_eq_frequencyWord (t : System) (freq : Word) : freqWord t freq = frequencyWord t freq := by
  cases t <;> rfl

theorem enterFreq_eq (r : Run) (req : TuneReq) (s : State) :
    enterFreq r req s =
      { s with run := inPhase { r with freqw := some (frequencyWord req.target req.freq) } (.tuneFreq req) } := by
  rw [enterFreq, freqWord_eq_frequencyWord]
  rfl

/-- Both SET_FRONTEND cases that tune go through TunerTune (R255). -/
theorem afterSequence_enterTuner (h : r.phase = .tuneS2A req ∨ r.phase = .tuneSame req) (s : State) :
    afterSequence r s = enterTuner r req s := by
  obtain h | h := h <;> rw [afterSequence, h]

theorem enterTuner_of_ok {b0 b1 b2 b3 : Byte} {rest : List Answer} (henv : s.env = .ok b0 b1 b2 b3 :: rest) :
    let opened : State := { s with rep := true, env := rest, history := s.history ++ [.setRepeater true true] }
    enterTuner r req s =
      if s.sub ≠ subModeOf req.target then gotoPhase r (.tuneReset req) opened else enterFreq r req opened := by
  rw [enterTuner, openRepeater_of_ok henv]

theorem enterTuner_of_err {a : Answer} {rest : List Answer} (henv : s.env = .err :: a :: rest) :
    enterTuner r req s = ended { s with
      rep := if a.isOk then false else s.rep
      env := rest
      history := s.history ++ [.setRepeater true false, .setRepeater false a.isOk] } .hardwareIoError [] := by
  rw [enterTuner, openRepeater_of_err henv]
  rfl

/-- Settles O35, phase by phase. -/
theorem tuneGoesOn : Obligations.TuneGoesOn := by
  intro s r req hr
  rw [exec_endSeq hr]
  refine ⟨fun old hp => ?_, fun b0 b1 b2 b3 rest hp henv other => ?_, fun b0 b1 b2 b3 rest hp henv same => ?_,
    fun a rest hp henv => ?_, fun hp => ?_, fun hp => ?_⟩
  · rw [afterSequence, hp]
    rfl
  · rw [afterSequence_enterTuner hp, enterTuner_of_ok henv, if_pos other]
    rfl
  · rw [afterSequence_enterTuner hp, enterTuner_of_ok henv, if_neg (not_not_intro same), enterFreq_eq]
  · rw [afterSequence_enterTuner hp, enterTuner_of_err henv]
  · rw [afterSequence, hp]
    rfl
  · rw [afterSequence, hp]
    exact congrArg _ (enterFreq_eq r req _)

/-- R259, with the tunes of R255's case 3 made Active (R258). -/
theorem finishTune_of_ok {b0 b1 b2 b3 : Byte} {rest : List Answer} (henv : s.env = .ok b0 b1 b2 b3 :: rest) :
    finishTune req s = ended { s with
      ds := if req.same then s.ds else .active
      tunedFreq := req.freq
      tunedBw := if req.target = .isdbT then req.bw else 0
      tunedValid := true
      rep := false, env := rest, history := s.history ++ [.setRepeater false true] } .ok [] := by
  rw [finishTune, closeRepeater, setRepeater_of_ok false henv, ← latchTuned_tunedBw s req]
  cases req.same <;> rfl

theorem finishTune_of_err {rest : List Answer} (henv : s.env = .err :: rest) :
    finishTune req s = ended { s with env := rest, history := s.history ++ [.setRepeater false false] }
      .hardwareIoError [] := by
  rw [finishTune, closeRepeater, setRepeater_of_err false henv]
  rfl

/-- Settles O36, by the answer to the repeater-off call. -/
theorem tuneFinishes : Obligations.TuneFinishes := by
  intro s r req hr hp
  rw [exec_endSeq hr, afterSequence, hp]
  exact ⟨fun _ _ _ _ _ henv => congrArg _ (finishTune_of_ok henv), fun _ henv => congrArg _ (finishTune_of_err henv)⟩

end Sys2Proof.Proofs
end

section
/-! The repeater after a command that ends with OK (R220, R226). -/

namespace Sys2Proof.Proofs

open Sys2Proof.Machine

/-- From `s` to `t` no repeater call was made. -/
def NoRepeaterCall (s t : State) : Prop := ∃ es, t.history = s.history ++ es ∧ ∀ b ok, .setRepeater b ok ∉ es

/-- If a repeater call was made from `s` to `t`, and `t` has the response OK, then the repeater is off in `t`. -/
def OkRepeaterOff (s t : State) : Prop :=
  NoRepeaterCall s t ∨ t.rep = false ∨ ∀ ws, t.resp ≠ some { status := .ok, results := ws }

variable {s t u : State}

/-! ### Procedures that make no repeater call -/

theorem noRepeaterCall_of_history (h : t.history = s.history) : NoRepeaterCall s t := ⟨[], by simp [h], by simp⟩

theorem NoRepeaterCall.trans (h : NoRepeaterCall s t) (k : NoRepeaterCall t u) : NoRepeaterCall s u := by
  obtain ⟨es, ht, hes⟩ := h
  obtain ⟨fs, hu, hfs⟩ := k
  exact ⟨es ++ fs, by rw [hu, ht, List.append_assoc], fun b ok hmem => (List.mem_append.mp hmem).elim (hes b ok) (hfs b ok)⟩

theorem accessOnly_noRepeaterCall {a : BusAddr} (h : AccessOnly a s t) : NoRepeaterCall s t := by
  obtain ⟨_, _, es, accesses, rfl⟩ := h
  exact ⟨es, rfl, fun b ok hmem => absurd (accesses _ hmem) (by simp [Event.accesses])⟩

theorem bind_noRepeaterCall {α β : Type} {r : Res α} {f : α → State → Res β} (h : NoRepeaterCall s r.state)
    (k : ∀ x t, NoRepeaterCall t (f x t).state) : NoRepeaterCall s (r.bind f).state := by
  cases r with
  | ok x t => exact h.trans (k x t)
  | err t => exact h

theorem ok_noRepeaterCall {α : Type} (x : α) (s : State) : NoRepeaterCall s (Res.ok x s).state :=
  noRepeaterCall_of_history rfl

theorem readField_noRepeaterCall (f : RegField) (s : State) : NoRepeaterCall s (readField f s).state :=
  accessOnly_noRepeaterCall (readField_accessOnly f s)

theorem readLock_noRepeaterCall (l : List (RegField × Word)) (s : State) : NoRepeaterCall s (readLock l s).state := by
  induction l generalizing s with
  | nil => exact ok_noRepeaterCall true s
  | cons p rest ih =>
    exact bind_noRepeaterCall (readField_noRepeaterCall ..) fun _ t =>
      bind_noRepeaterCall (ih t) fun _ t => ok_noRepeaterCall _ t

theorem readSymrate_noRepeaterCall (s : State) : NoRepeaterCall s (readSymrate s).state := by
  unfold readSymrate
  split
  · exact readField_noRepeaterCall ..
  · exact ok_noRepeaterCall 0 s

theorem readCnr_noRepeaterCall (sy : System) (full : Bool) (s : State) : NoRepeaterCall s (readCnr sy full s).state := by
  cases full with
  | false => exact ok_noRepeaterCall _ s
  | true =>
    cases sy with
    | isdbT => exact bind_noRepeaterCall (readField_noRepeaterCall ..) fun _ t => ok_noRepeaterCall _ t
    | isdbS | isdbS3 =>
      exact bind_noRepeaterCall (readSymrate_noRepeaterCall s) fun _ _ =>
        bind_noRepeaterCall (readField_noRepeaterCall ..) fun _ t => ok_noRepeaterCall _ t

theorem readPer_noRepeaterCall (sy : System) (s : State) : NoRepeaterCall s (readPer sy s).state := by
  cases sy with
  | isdbT =>
    exact bind_noRepeaterCall (readField_noRepeaterCall ..) fun _ _ =>
      bind_noRepeaterCall (readField_noRepeaterCall ..) fun _ t => ok_noRepeaterCall _ t
  | isdbS | isdbS3 => exact ok_noRepeaterCall none s

theorem statusWords_noRepeaterCall (sy : System) (s : State) : NoRepeaterCall s (statusWords sy s).state :=
  bind_noRepeaterCall (readLock_noRepeaterCall ..) fun _ _ =>
    bind_noRepeaterCall (readField_noRepeaterCall ..) fun _ _ =>
      bind_noRepeaterCall (readCnr_noRepeaterCall ..) fun _ _ =>
        bind_noRepeaterCall (readPer_noRepeaterCall ..) fun _ t => ok_noRepeaterCall _ t

/-! ### Commands -/

theorem okRepeaterOff_of_history (h : t.history = s.history) : OkRepeaterOff s t := .inl (noRepeaterCall_of_history h)

theorem NoRepeaterCall.respond (h : NoRepeaterCall s t) (st : Status) (ws : List Word) :
    OkRepeaterOff s (respond st ws t) := .inl (h.trans (noRepeaterCall_of_history rfl))

theorem raiseStatus_okRepeaterOff {st : Status} (h : st ≠ .ok) (n : Nat) (s t : State) :
    OkRepeaterOff s (raiseStatus st n t) := .inr (.inr fun _ => by simp [h])

theorem execSleep_history (h : execSleep s = .next t) : t.history = s.history := by
  unfold execSleep at h
  split at h
  · split at h <;> cases h
    rfl
  all_goals cases h; rfl

theorem startTune_history {sy : System} {bw : BitVec 4} {freq : Word} (h : startTune sy bw freq s = .next t) :
    t.history = s.history := by
  unfold startTune at h
  split at h
  · split at h
    · cases h
    · split at h <;> cases h <;> rfl
  all_goals cases h; rfl

theorem execSetFrontend_history {sys : BitVec 3} {bw : BitVec 4} {freq sid : Word}
    (h : execSetFrontend sys bw freq sid s = .next t) : t.history = s.history := by
  unfold execSetFrontend at h
  split at h
  · cases h; rfl
  · split at h
    · exact startTune_history h
    · cases h; rfl

theorem execReadStatus_okRepeaterOff (h : execReadStatus s = .next t) : OkRepeaterOff s t := by
  unfold execReadStatus at h
  split at h
  · split at h
    next => cases h
    next sy _ =>
      have quiet := statusWords_noRepeaterCall sy s
      split at h <;> rename_i hw <;> rw [hw] at quiet <;> cases h <;> exact quiet.respond _ _
  all_goals cases h; exact okRepeaterOff_of_history rfl

/-- A bracket that succeeds has been closed by a call that succeeded (R220). -/
theorem withRepeater_ok_rep {p : State → Res Unit} {x : Unit} (h : withRepeater p s = .ok x t) : t.rep = false := by
  unfold withRepeater at h
  split at h
  · cases h
  · split at h
    · cases h
    · exact closeRepeater_ok_rep h

theorem finishBits_okRepeaterOff (tgt : Target) {p : State → Res Unit} (hp : NoRepeaterCall s (p s).state) :
    OkRepeaterOff s (finishBits (onTarget tgt p s)) := by
  cases tgt with
  | demod =>
    rw [onTarget]
    obtain ⟨-, e⟩ | ⟨-, e⟩ := finishBits_cases (p s) <;> rw [e] <;> exact hp.respond _ _
  | tuner =>
    rw [onTarget]
    cases h : withRepeater p s with
    | ok x t =>
      have off : t.rep = false := withRepeater_ok_rep h
      exact .inr (.inl off)
    | err t => exact raiseStatus_okRepeaterOff (by decide) 0 s t

/-! ### ROM entries -/

theorem failSequence_okRepeaterOff {st : Status} (h : st ≠ .ok) (r : Run) (s t : State) :
    OkRepeaterOff s (failSequence st r t) := raiseStatus_okRepeaterOff h 0 s _

theorem NoRepeaterCall.advance (h : NoRepeaterCall s t) (r : Run) : OkRepeaterOff s (advance r t) :=
  .inl (h.trans (noRepeaterCall_of_history rfl))

theorem afterAccess_okRepeaterOff (r : Run) {a : BusAddr} {res : Res Unit} (h : AccessOnly a s res.state) :
    OkRepeaterOff s (afterAccess r res) := by
  cases res with
  | ok _ t => exact (accessOnly_noRepeaterCall h).advance r
  | err t => exact failSequence_okRepeaterOff (by decide) r s t

theorem afterPoll_okRepeaterOff (m : Byte) (r : Run) {a : BusAddr} {res : Res Byte} (h : AccessOnly a s res.state) :
    OkRepeaterOff s (afterPoll m r res) := by
  obtain ⟨u, hu, e⟩ | ⟨u, st, -, hst, e⟩ := afterPoll_cases a m r h <;> rw [e]
  · exact (accessOnly_noRepeaterCall hu).advance r
  · exact raiseStatus_okRepeaterOff hst 0 s u

theorem execWrv_okRepeaterOff {a : Access} {src : Source} (h : execWrv a src s = .next t) : OkRepeaterOff s t := by
  obtain ⟨r, -, e⟩ := inSequence_eq_next h
  split at e <;> cases e
  · exact okRepeaterOff_of_history rfl
  · exact afterAccess_okRepeaterOff r (accessOp_accessOnly ..)

theorem execRdsel_okRepeaterOff {a : Access} (h : execRdsel a s = .next t) : OkRepeaterOff s t := by
  obtain ⟨r, -, e⟩ := inSequence_eq_next h
  have access := readEntry_accessOnly a s
  split at e
  · cases e
  · split at e <;> rename_i hread <;> rw [hread] at access
    · cases e
      exact failSequence_okRepeaterOff (by decide) r s _
    · split at e <;> cases e
      exact (accessOnly_noRepeaterCall access).advance _

theorem okRepeaterOff_of_pending (h : t.resp = none) : OkRepeaterOff s t := .inr (.inr fun _ => by simp [h])

theorem enterTuner_okRepeaterOff (r : Run) (req : TuneReq) (h : s.resp = none) :
    OkRepeaterOff s (enterTuner r req s) := by
  obtain ⟨u, -, e⟩ | ⟨u, bus, -, ⟨-, e⟩ | ⟨-, e⟩⟩ := enterTuner_cases r req s <;> rw [e]
  · exact raiseStatus_okRepeaterOff (by decide) 0 s u
  · exact okRepeaterOff_of_pending (bus.resp.trans h)
  · exact okRepeaterOff_of_pending (bus.resp.trans h)

/-- Where an END makes a repeater call, the command goes on, or fails, or the call closed the bracket. -/
theorem afterSequence_okRepeaterOff (r : Run) (h : s.resp = none) : OkRepeaterOff s (afterSequence r s) := by
  unfold afterSequence
  split
  next =>
    obtain ⟨u, -, e⟩ | ⟨u, bus, -, e⟩ := enterColdboot_cases r s <;> rw [e]
    · exact raiseStatus_okRepeaterOff (by decide) 0 s u
    · exact okRepeaterOff_of_pending (bus.resp.trans h)
  next =>
    obtain ⟨u, -, e⟩ | ⟨u, -, hrep, e⟩ := finishInit_cases s <;> rw [e]
    · exact raiseStatus_okRepeaterOff (by decide) 0 s u
    · exact .inr (.inl hrep)
  next => exact okRepeaterOff_of_history rfl
  next => exact okRepeaterOff_of_history rfl
  next req _ => exact enterTuner_okRepeaterOff r req h
  next req _ => exact enterTuner_okRepeaterOff r req h
  next => exact okRepeaterOff_of_history rfl
  next => exact okRepeaterOff_of_history rfl
  next req _ =>
    obtain ⟨u, -, e⟩ | ⟨u, -, hrep, e⟩ := finishTune_cases req s <;> rw [e]
    · exact raiseStatus_okRepeaterOff (by decide) 0 s u
    · refine .inr (.inl ?_)
      cases req.same <;> exact hrep

/-! ### All instructions -/

theorem exec_okRepeaterOff {i : Instr} (hresp : s.resp = none) (h : exec i s = .next t) : OkRepeaterOff s t := by
  cases i with
  | log2 _ | log10 _ | sext _ _ | getState | init => cases h; exact okRepeaterOff_of_history rfl
  | percalc _ _ | rssiT _ _ | rssiS _ | cnrT _ => exact okRepeaterOff_of_history (finish_pureEnd h).noEvent.1
  | tlookup _ _ => exact okRepeaterOff_of_history (execTlookup_pureEnd h).noEvent.1
  | pwl _ _ => exact okRepeaterOff_of_history (execPwl_pureEnd h).noEvent.1
  | cnrS _ _ _ => exact okRepeaterOff_of_history (execCnrS_pureEnd h).noEvent.1
  | setBits tgt _ _ _ => cases h; exact finishBits_okRepeaterOff tgt (accessOnly_noRepeaterCall (setBitsOp_accessOnly ..))
  | setBankedBits tgt _ _ _ _ =>
    cases h; exact finishBits_okRepeaterOff tgt (accessOnly_noRepeaterCall (setBankedBitsOp_accessOnly ..))
  | sleep => exact okRepeaterOff_of_history (execSleep_history h)
  | setFrontend _ _ _ _ => exact okRepeaterOff_of_history (execSetFrontend_history h)
  | readStatus => exact execReadStatus_okRepeaterOff h
  | endSeq =>
    obtain ⟨r, -, e⟩ := inSequence_eq_next h
    cases e
    exact afterSequence_okRepeaterOff r hresp
  | wr _ _ =>
    obtain ⟨r, -, e⟩ := inSequence_eq_next h
    cases e
    exact afterAccess_okRepeaterOff r (accessOp_accessOnly ..)
  | wrv _ _ => exact execWrv_okRepeaterOff h
  | delay _ | hook _ _ =>
    obtain ⟨r, -, e⟩ := inSequence_eq_next h
    cases e
    exact okRepeaterOff_of_pending hresp
  | pollz _ =>
    obtain ⟨r, -, e⟩ := inSequence_eq_next h
    cases e
    exact afterPoll_okRepeaterOff _ r (readEntry_accessOnly ..)
  | rdsel _ => exact execRdsel_okRepeaterOff h

/-- A step of a block that answers no command twice: it waits, runs an entry of a command that has not responded, or takes a
command and with it drops the last response. -/
theorem step_okRepeaterOff (inv : BlockInv s) (h : step s = .next t) : OkRepeaterOff s t := by
  obtain ⟨-, -, entry | idle | command⟩ := step_cases h
  · obtain ⟨r, _, _, hr, -, -, he⟩ := entry
    exact exec_okRepeaterOff (inv.pending (by simp [hr])) he
  · obtain ⟨-, rfl, -⟩ := idle
    exact okRepeaterOff_of_history rfl
  · obtain ⟨_, rest, -, -, -, illegal | legal⟩ := command
    · obtain ⟨_, -, rfl⟩ := illegal
      exact okRepeaterOff_of_history rfl
    · obtain ⟨_, -, he⟩ := legal
      exact exec_okRepeaterOff (s := takeCommand rest s) rfl he

/-- Settles O55: a repeater call among the step's events leaves only a state with the repeater off. -/
theorem okLeavesRepeaterOff : Obligations.OkLeavesRepeaterOff := by
  intro s t ws b ok es inv h hist call resp
  obtain ⟨fs, hist', quiet⟩ | off | notOk := step_okRepeaterOff inv h
  · obtain rfl : es = fs := List.append_cancel_left (hist.symm.trans hist')
    exact absurd call (quiet b ok)
  · exact off
  · exact absurd resp (notOk ws)

end Sys2Proof.Proofs
end

section
/-! SEQ_ROM's well-formedness (R201): item by item for one entry, then along a sequence. -/

namespace Sys2Proof.Proofs

open Sys2Proof.Machine Sys2Proof.Claims

/-- Items 5 to 8 of R201 for an entry of sequence `id`. -/
def EntryAllowed (c : Config) (id : SeqId) (i : Instr) : Prop :=
  (∀ a v, i = .wr a v → a.tgt = id.target) ∧
  (∀ a src, i = .wrv a src → a.tgt = id.target) ∧
  (∀ a, i = .pollz a → a.tgt = id.target ∧ id.number = 1) ∧
  (∀ a, i = .rdsel a → a.tgt = id.target ∧ 2 ≤ id.number ∧ id.number ≤ 7 ∧ a.mask ≠ 0 ∧
    ∀ b : Byte, ∀ k, (k = (b &&& a.mask).toNat / 2 ^ ctz a.mask) → k < c.tsclkTable.length)

variable {c : Config} {id : SeqId} {i : Instr}

/-! ### One entry -/

theorem eq_tunerColdboot_iff : id = .tunerColdboot ↔ id.number = 1 := by cases id <;> decide

theorem mayRdsel_iff : id.mayRdsel = true ↔ 2 ≤ id.number ∧ id.number ≤ 7 := by cases id <;> decide

/-- No command's words are a ROM entry. -/
theorem isCommand_of_decodeEntry {e : RomWord} (h : decodeEntry e = .ok i) : i.isCommand = false := by
  have words : encode i = .romEntry e := encodeUndoesDecode (.romEntry e) i h
  cases i with
  | endSeq | wr _ _ | wrv _ _ | delay _ | pollz _ | rdsel _ | hook _ _ => rfl
  | _ => cases words

/-- Item 8: of all reads of an RDSEL, the one with every masked bit set has the largest index. -/
theorem tsTableCovers_rdsel_iff (a : Access) :
    tsTableCovers c (.rdsel a) = true ↔
      ∀ b : Byte, ∀ k, (k = (b &&& a.mask).toNat / 2 ^ ctz a.mask) → k < c.tsclkTable.length := by
  simp only [tsTableCovers, decide_eq_true_eq, Nat.shiftRight_eq_div_pow]
  refine ⟨fun h b k hk => ?_, fun h => h a.mask _ (by rw [BitVec.and_self])⟩
  have masked : (b &&& a.mask).toNat ≤ a.mask.toNat := by
    rw [BitVec.toNat_and]
    exact Nat.and_le_right
  rw [hk]
  exact (Nat.div_le_div_right masked).trans_lt h

theorem allowed_iff (h : i.isCommand = false) :
    (i.allowedIn id && tsTableCovers c i) = true ↔ EntryAllowed c id i := by
  cases i with
  | endSeq | delay _ | hook _ _ | wr _ _ | wrv _ _ => simp [EntryAllowed, Instr.allowedIn, Instr.wf, tsTableCovers]
  | pollz a => simp [EntryAllowed, Instr.allowedIn, Instr.wf, tsTableCovers, eq_tunerColdboot_iff]
  | rdsel a =>
    rw [Bool.and_eq_true, tsTableCovers_rdsel_iff]
    simp [EntryAllowed, Instr.allowedIn, Instr.wf, mayRdsel_iff, and_assoc, and_comm, and_left_comm]
  | _ => cases h

/-! ### One sequence -/

theorem mapM_decode_of_error {e : RomWord} {x : DecodeError} (hd : decodeEntry e = .error x) (rest : List RomWord) :
    (e :: rest).mapM decodeEntry = .error x := by
  rw [List.mapM_cons, hd]
  rfl

theorem mapM_decode_of_ok {e : RomWord} (hd : decodeEntry e = .ok i) (rest : List RomWord) :
    (e :: rest).mapM decodeEntry = (rest.mapM decodeEntry).map (i :: ·) := by
  rw [List.mapM_cons, hd]
  rfl

/-- What the decoded sequence is like, past its first entry. -/
theorem exists_decode_cons {e : RomWord} (hd : decodeEntry e = .ok i) (rest : List RomWord) (P : List Instr → Prop) :
    (∃ js, (e :: rest).mapM decodeEntry = .ok js ∧ P js) ↔ ∃ js, rest.mapM decodeEntry = .ok js ∧ P (i :: js) := by
  rw [mapM_decode_of_ok hd]
  cases rest.mapM decodeEntry <;> simp [Except.map]

theorem mapM_decode_eq_nil {es : List RomWord} : es.mapM decodeEntry = .ok [] ↔ es = [] := by
  cases es with
  | nil => exact ⟨fun _ => rfl, fun _ => rfl⟩
  | cons e rest =>
    cases hd : decodeEntry e with
    | error x => simp [mapM_decode_of_error hd]
    | ok i => rw [mapM_decode_of_ok hd]; cases rest.mapM decodeEntry <;> simp [Except.map]

/-- R201 of the instructions a sequence decodes to: an END, and before it entries that are none and may stand there. -/
def Accepted (c : Config) (id : SeqId) (js : List Instr) : Prop :=
  ∃ is : List Instr, js = is ++ [.endSeq] ∧ ∀ i ∈ is, i ≠ .endSeq ∧ EntryAllowed c id i

theorem not_accepted_nil : ¬Accepted c id [] := by
  rintro ⟨is, h, -⟩
  exact absurd h.symm (by simp)

theorem accepted_endSeq_cons {js : List Instr} : Accepted c id (.endSeq :: js) ↔ js = [] := by
  constructor
  · rintro ⟨is, h, allowed⟩
    cases is with
    | nil => exact (List.cons.inj h).2
    | cons i is =>
      obtain ⟨rfl, -⟩ := List.cons.inj h
      exact absurd rfl (allowed .endSeq (by simp)).1
  · rintro rfl
    exact ⟨[], rfl, by simp⟩

theorem accepted_cons {js : List Instr} (hi : i ≠ .endSeq) :
    Accepted c id (i :: js) ↔ EntryAllowed c id i ∧ Accepted c id js := by
  constructor
  · rintro ⟨is, h, allowed⟩
    cases is with
    | nil => exact absurd (List.cons.inj h).1 hi
    | cons j is =>
      obtain ⟨rfl, rfl⟩ := List.cons.inj h
      obtain ⟨first, rest⟩ := List.forall_mem_cons.mp allowed
      exact ⟨first.2, is, rfl, rest⟩
  · rintro ⟨first, is, rfl, rest⟩
    exact ⟨i :: is, rfl, List.forall_mem_cons.mpr ⟨⟨hi, first⟩, rest⟩⟩

/-- The scan accepts exactly the sequences that decode to an accepted list. -/
theorem sequenceWf_iff (c : Config) (id : SeqId) (es : List RomWord) :
    sequenceWf c id es = true ↔ ∃ js, es.mapM decodeEntry = .ok js ∧ Accepted c id js := by
  induction es with
  | nil =>
    refine ⟨nofun, ?_⟩
    rintro ⟨_, ⟨⟩, h⟩
    exact absurd h not_accepted_nil
  | cons e rest ih =>
    rw [sequenceWf]
    cases hd : decodeEntry e with
    | error x => simp [mapM_decode_of_error hd]
    | ok i =>
      have allowed := allowed_iff (c := c) (id := id) (isCommand_of_decodeEntry hd)
      rw [exists_decode_cons hd]
      by_cases hi : i = .endSeq
      · subst hi
        have ends : EntryAllowed c id .endSeq := by simp [EntryAllowed]
        simp [allowed.mpr ends, accepted_endSeq_cons, mapM_decode_eq_nil]
      · simp only [if_neg hi, accepted_cons hi]
        rw [Bool.and_eq_true, allowed, ih]
        exact ⟨fun ⟨first, js, hjs, h⟩ => ⟨js, hjs, first, h⟩, fun ⟨js, hjs, first, h⟩ => ⟨first, js, hjs, h⟩⟩

/-- Settles O10: every sequence is in the list that `seqRomWf` scans. -/
theorem seqRomWellFormedExactly : Obligations.SeqRomWellFormedExactly := by
  intro c
  have scanned : seqRomWf c = true ↔ ∀ id, sequenceWf c id (c.seqRom.entries id) = true := by
    have listed (id : SeqId) : id ∈ SeqId.all := by cases id <;> decide
    exact List.all_eq_true.trans ⟨fun h id => h id (listed id), fun h id _ => h id⟩
  rw [scanned]
  refine forall_congr' fun id => (sequenceWf_iff c id _).trans ⟨?_, ?_⟩
  · rintro ⟨_, decodes, is, rfl, allowed⟩
    exact ⟨is, decodes, allowed⟩
  · rintro ⟨is, decodes, allowed⟩
    exact ⟨_, decodes, is, rfl, allowed⟩

end Sys2Proof.Proofs
end

section
/-! A SET_FRONTEND request (R255 to R257): its target, the causes that refuse it, and the case a supported one starts in. -/

namespace Sys2Proof.Proofs

open Sys2Proof.Machine Sys2Proof.Claims

variable {s : State} {sys : BitVec 3} {bw : BitVec 4} {freq sid : Word} {c : Config} {t : System}

/-! ### The target (R256) -/

theorem requestTarget_eq_some_iff : requestTarget c sys sid = some t ↔ targetNumber c sys sid = systemNumber t := by
  unfold requestTarget targetNumber
  split
  next h => cases t <;> simp [h, systemNumber]
  next h => by_cases hs : sid = c.s3StreamIdA ∨ sid = c.s3StreamIdB <;> cases t <;> simp [h, hs, systemNumber]
  next h => cases t <;> simp [h, systemNumber]
  next h1 h2 h3 => cases t <;> simp_all [systemNumber]

theorem requestTarget_eq_none_iff :
    requestTarget c sys sid = none ↔
      targetNumber c sys sid ≠ 1 ∧ targetNumber c sys sid ≠ 2 ∧ targetNumber c sys sid ≠ 3 := by
  have named (t : System) : requestTarget c sys sid ≠ some t ↔ targetNumber c sys sid ≠ systemNumber t :=
    requestTarget_eq_some_iff.not
  rw [Option.eq_none_iff_forall_ne_some]
  exact ⟨fun h => ⟨(named .isdbT).mp (h _), (named .isdbS).mp (h _), (named .isdbS3).mp (h _)⟩,
    fun ⟨h1, h2, h3⟩ t => (named t).mpr (by cases t <;> assumption)⟩

/-! ### The causes of UNSUPPORTED_SYSTEM (R257) -/

theorem bandwidthOf_isSome_iff : (bandwidthOf bw).isSome = true ↔ bw.toNat = 6 ∨ bw.toNat = 7 ∨ bw.toNat = 8 := by
  revert bw
  decide

theorem requestFits_iff :
    requestFits c t bw freq = true ↔
      if systemNumber t = 1 then (bw.toNat = 6 ∨ bw.toNat = 7 ∨ bw.toNat = 8) ∧ freq.toNat < 2 ^ c.tFreqBits
      else (freq.toNat + 2) / 4 < 2 ^ 24 := by
  cases t with
  | isdbT => simp [requestFits, systemNumber, bandwidthOf_isSome_iff]
  | isdbS | isdbS3 => exact decide_eq_true_iff

theorem unsupported_of_no_target (h : requestTarget s.cfg sys sid = none) : Unsupported s sys bw freq sid :=
  .inl (requestTarget_eq_none_iff.mp h)

/-- Where the request names a system, what is left of R257's causes is the request's fit and the DS. -/
theorem not_unsupported_iff (h : requestTarget s.cfg sys sid = some t) :
    ¬Unsupported s sys bw freq sid ↔ requestFits s.cfg t bw freq = true ∧ s.ds ≠ .unknown := by
  rw [requestFits_iff]
  simp only [Unsupported, requestTarget_eq_some_iff.mp h]
  cases t with
  | isdbT => simp [systemNumber, and_assoc, or_iff_not_imp_left]
  | isdbS | isdbS3 => simp [systemNumber]

/-! ### The command -/

theorem exec_setFrontend_of_unsupported (h : Unsupported s sys bw freq sid) :
    exec (.setFrontend sys bw freq sid) s = .next (ended s .unsupportedSystem []) := by
  simp only [exec, execSetFrontend]
  cases ht : requestTarget s.cfg sys sid with
  | none => rfl
  | some t =>
    have refused := mt (not_unsupported_iff ht).mpr (not_not_intro h)
    simp only [if_neg refused]
    rfl

theorem exec_setFrontend_of_supported (h : ¬Unsupported s sys bw freq sid)
    (ht : targetNumber s.cfg sys sid = systemNumber t) :
    exec (.setFrontend sys bw freq sid) s = startTune t bw freq s := by
  have target := requestTarget_eq_some_iff.mpr ht
  simp only [exec, execSetFrontend, target, if_pos ((not_unsupported_iff target).mp h)]

theorem target_of_supported (h : ¬Unsupported s sys bw freq sid) :
    ∃ t, targetNumber s.cfg sys sid = systemNumber t := by
  obtain ⟨t, ht⟩ := Option.ne_none_iff_exists'.mp (mt unsupported_of_no_target h)
  exact ⟨t, requestTarget_eq_some_iff.mp ht⟩

/-- Settles O32: a supported request begins a tune, which has not responded. -/
theorem setFrontendRefusesUnsupported : Obligations.SetFrontendRefusesUnsupported := by
  intro s sys bw freq sid
  refine ⟨exec_setFrontend_of_unsupported, fun t ws hs h ht => ?_⟩
  by_contra supported
  obtain ⟨sy, hsy⟩ := target_of_supported supported
  rw [exec_setFrontend_of_supported supported hsy] at h
  rw [startTune_resp h, hs] at ht
  cases ht

/-! ### The three cases (R255, R258) -/

theorem megahertz_of_bandwidthOf {m : Bandwidth} (h : bandwidthOf bw = some m) : megahertz m = bw.toNat := by
  revert bw
  cases m <;> decide

theorem requestBwsel_bwselOf (fits : requestFits c t bw freq = true) : BwselOf t bw (requestBwsel t bw) := by
  cases t with
  | isdbT =>
    simp only [requestFits, Bool.and_eq_true] at fits
    obtain ⟨m, hm⟩ := Option.isSome_iff_exists.mp fits.1
    exact .inl ⟨rfl, m, hm, megahertz_of_bandwidthOf hm⟩
  | isdbS | isdbS3 => exact .inr ⟨by simp, rfl⟩

theorem startTune_of_sleep (hds : s.ds = .sleep) :
    startTune t bw freq s = .next (startRun (.tuneS2A { target := t, bw := bw, freq := freq, same := false })
      (requestBwsel t bw) { s with sys := systemValue t }) := by
  simp only [startTune, hds]

theorem startTune_of_same (hds : s.ds = .active) (hsys : s.sys = systemValue t) :
    startTune t bw freq s = .next (startRun (.tuneSame { target := t, bw := bw, freq := freq, same := true })
      (requestBwsel t bw) s) := by
  simp only [startTune, hds, hsys, system?_systemValue, if_true]

theorem startTune_of_other {old : System} (hds : s.ds = .active) (hsys : s.sys = systemValue old) (other : old ≠ t) :
    startTune t bw freq s = .next (startRun (.tuneSleep old { target := t, bw := bw, freq := freq, same := false })
      (requestBwsel t bw) s) := by
  simp only [startTune, hds, hsys, system?_systemValue, if_neg other]

/-- Settles O33, by where a tune of a supported request starts. -/
theorem setFrontendCases : Obligations.SetFrontendCases := by
  intro s sys bw freq sid t supported ht
  have fits := (not_unsupported_iff (requestTarget_eq_some_iff.mpr ht)).mp supported
  rw [exec_setFrontend_of_supported supported ht]
  exact ⟨requestBwsel t bw, requestBwsel_bwselOf fits.1, startTune_of_sleep, startTune_of_same,
    fun _ => startTune_of_other⟩

end Sys2Proof.Proofs
end

section
/-! What an entry makes of the sequence it runs in (R200, R226, R340); the path of a same-system tune and the state after a
successful one (R261). -/

namespace Sys2Proof.Proofs

open Sys2Proof.Machine Sys2Proof.Claims

/-- What an entry of the running sequence of `r` makes of the state it runs in. -/
inductive EntryEffect (s : State) (r : Run) : State → Prop where
  | fails {st : Status} (hst : st ≠ .ok) (u : State) : EntryEffect s r (raiseStatus st 0 u)
  | faults (x : FaultReason) : EntryEffect s r (raiseFault x s)
  /-- the next entry; only RDSEL writes the run, and of it TSTUPLE (R207) -/
  | advances {u : State} (bus : BusOnly s u) (ts : Option TsTuple) :
      EntryEffect s r (advance { r with tstuple := ts } u)
  | endsSequence : EntryEffect s r (afterSequence r s)

variable {s t : State} {r : Run} {req : TuneReq}

theorem failSequence_entryEffect {st : Status} (hst : st ≠ .ok) (u : State) :
    EntryEffect s r (failSequence st r u) := .fails hst _

theorem afterAccess_entryEffect {res : Res Unit} (h : BusOnly s res.state) : EntryEffect s r (afterAccess r res) := by
  cases res with
  | ok _ u => exact .advances h r.tstuple
  | err u => exact failSequence_entryEffect (by decide) u

theorem afterPoll_entryEffect {a : BusAddr} {m : Byte} {res : Res Byte} (h : AccessOnly a s res.state) :
    EntryEffect s r (afterPoll m r res) := by
  obtain ⟨u, hu, e⟩ | ⟨u, st, -, hst, e⟩ := afterPoll_cases a m r h <;> rw [e]
  · exact .advances hu.busOnly r.tstuple
  · exact .fails hst u

theorem execWrv_entryEffect (hr : s.run = some r) {a : Access} {src : Source} (h : execWrv a src s = .next t) :
    EntryEffect s r t := by
  rw [execWrv, inSequence_of_run hr] at h
  split at h <;> cases h
  · exact .faults _
  · exact afterAccess_entryEffect (accessOp_busOnly ..)

theorem execRdsel_entryEffect (hr : s.run = some r) {a : Access} (h : execRdsel a s = .next t) : EntryEffect s r t := by
  rw [execRdsel, inSequence_of_run hr] at h
  have bus := readEntry_busOnly a s
  split at h
  · cases h
  · split at h <;> rename_i hread <;> rw [hread] at bus
    · cases h
      exact failSequence_entryEffect (by decide) _
    · split at h <;> cases h
      exact .advances bus _

theorem exec_entryEffect {i : Instr} (hi : i.isCommand = false) (hr : s.run = some r) (h : exec i s = .next t) :
    EntryEffect s r t := by
  cases i with
  | endSeq => cases (exec_endSeq hr).symm.trans h; exact .endsSequence
  | wr a val => cases (inSequence_of_run hr _).symm.trans h; exact afterAccess_entryEffect (accessOp_busOnly ..)
  | wrv a src => exact execWrv_entryEffect hr h
  | delay ms => cases (inSequence_of_run hr _).symm.trans h; exact .advances (State.record_busOnly ..) r.tstuple
  | pollz a => cases (exec_pollz hr a).symm.trans h; exact afterPoll_entryEffect (readEntry_accessOnly ..)
  | rdsel a => exact execRdsel_entryEffect hr h
  | hook id val => cases (inSequence_of_run hr _).symm.trans h; exact .advances (State.record_busOnly ..) r.tstuple
  | _ => cases hi

/-- A step of a running command executes one entry of its sequence, and no command. -/
theorem step_entryEffect (hr : s.run = some r) (h : step s = .next t) : EntryEffect s r t := by
  obtain ⟨-, -, entry | idle | command⟩ := step_cases h
  · obtain ⟨r', _, _, hr', -, hd, he⟩ := entry
    exact exec_entryEffect (isCommand_of_decodeEntry hd) hr he
  · rw [hr] at idle
    cases idle.1
  · obtain ⟨_, _, hr', -⟩ := command
    rw [hr] at hr'
    cases hr'

/-! ### A same-system tune (R261 item 1) -/

theorem finishTune_run (req : TuneReq) (s : State) : (finishTune req s).run = none := by
  obtain ⟨u, -, e⟩ | ⟨u, -, -, e⟩ := finishTune_cases req s <;> rw [e] <;> rfl

/-- The tuner's front end is in the system's sub-mode already, so TunerTune goes to the frequency sequence at once. -/
theorem enterTuner_stays_sameSystem (hsub : s.sub = subModeOf req.target) (hsame : req.same = true) {r' : Run}
    (h : (enterTuner r req s).run = some r') : SameSystemPhase r'.phase := by
  obtain ⟨u, -, e⟩ | ⟨u, -, -, ⟨other, -⟩ | ⟨-, e⟩⟩ := enterTuner_cases r req s
  · rw [e] at h
    cases h
  · exact absurd hsub other
  · rw [e] at h
    cases h
    exact hsame

theorem afterSequence_stays_sameSystem (inv : BlockInv s) (hr : s.run = some r) (hp : SameSystemPhase r.phase) {r' : Run}
    (h : (afterSequence r s).run = some r') : SameSystemPhase r'.phase := by
  have phase := inv.phase r hr
  unfold afterSequence at h
  cases hphase : r.phase with rw [hphase] at phase hp h
  | tuneSame req =>
    obtain ⟨hds, hsys, hsame⟩ := phase
    have tune : TuneConsistent s req := ⟨hsys, fun _ => hds, by simp [hsame]⟩
    exact enterTuner_stays_sameSystem (tune.sub_of_same inv.active hsame) hsame h
  | tuneFreq req =>
    rw [finishTune_run] at h
    cases h
  | _ => exact hp.elim

theorem entryEffect_stays_sameSystem (inv : BlockInv s) (hr : s.run = some r) (hp : SameSystemPhase r.phase)
    (e : EntryEffect s r t) {r' : Run} (h : t.run = some r') : SameSystemPhase r'.phase := by
  cases e with
  | fails | faults => cases h
  | advances => cases h; exact hp
  | endsSequence => exact afterSequence_stays_sameSystem inv hr hp h

/-- Settles O37: the request starts on the same-system path or is refused, and no entry leaves the path. -/
theorem sameSystemTuneStaysLight : Obligations.SameSystemTuneStaysLight := by
  refine ⟨fun s t sys bw freq sid sy _ hds hsys ht h r hr => ?_,
    fun s t r r' inv hr hp h hr' => entryEffect_stays_sameSystem inv hr hp (step_entryEffect hr h) hr'⟩
  by_cases refused : Unsupported s sys bw freq sid
  · cases (exec_setFrontend_of_unsupported refused).symm.trans h
    cases hr
  · rw [exec_setFrontend_of_supported refused ht, startTune_of_same hds hsys] at h
    cases h
    cases hr
    rfl

/-! ### The end of a tune (R261 item 3) -/

/-- The fields after a tune of `req` that has succeeded. -/
structure Tuned (req : TuneReq) (t : State) : Prop where
  ds : t.ds = .active
  sys : t.sys = systemValue req.target
  sub : t.sub = subModeOf req.target
  tunedValid : t.tunedValid = true
  tunedFreq : t.tunedFreq = req.freq
  rep : t.rep = false
  run : t.run = none

theorem finishTune_tuned (phase : PhaseConsistent s (.tuneFreq req))
    (h : (finishTune req s).resp = some { status := .ok, results := [] }) : Tuned req (finishTune req s) := by
  obtain ⟨hsys, hsub, active, -⟩ := phase
  obtain ⟨u, -, e⟩ | ⟨u, bus, hrep, e⟩ := finishTune_cases req s
  · rw [e] at h
    cases h
  · rw [e]
    cases hsame : req.same with
    | true => exact ⟨bus.ds.trans (active hsame), bus.sys.trans hsys, bus.sub.trans hsub, rfl, rfl, hrep, rfl⟩
    | false => exact ⟨rfl, bus.sys.trans hsys, bus.sub.trans hsub, rfl, rfl, hrep, rfl⟩

theorem entryEffect_tuned (inv : BlockInv s) (hr : s.run = some r) (hp : r.phase = .tuneFreq req)
    (e : EntryEffect s r t) (h : t.resp = some { status := .ok, results := [] }) : Tuned req t := by
  cases e with
  | fails hst => cases h; exact absurd rfl hst
  | faults => cases h
  | advances bus =>
    have pending : s.resp = none := inv.pending (by simp [hr])
    cases (bus.resp.trans pending).symm.trans h
  | endsSequence =>
    have phase := inv.phase r hr
    rw [hp] at phase
    rw [afterSequence, hp] at h ⊢
    exact finishTune_tuned phase h

/-- Settles O38: of the entries of the frequency sequence only its END answers OK, and only after the latch. -/
theorem successfulTuneLeavesActive : Obligations.SuccessfulTuneLeavesActive := by
  intro s t r req inv hr hp h ht
  have tuned := entryEffect_tuned inv hr hp (step_entryEffect hr h) ht
  exact ⟨tuned.ds, tuned.sys, tuned.sub, tuned.tunedValid, tuned.tunedFreq, tuned.rep, tuned.run⟩

end Sys2Proof.Proofs
end

section
/-! The STATE word (R42, R262). -/

namespace Sys2Proof.Proofs

open Sys2Proof.Machine Sys2Proof.Claims

theorem getLsbD_of_flagBit {w : Word} {i : Nat} {b : Bool} (h : w.extractLsb' i 1 = flagBit b) : w.getLsbD i = b := by
  have bit := congrArg (BitVec.getLsbD · 0) h
  simpa [flagBit] using bit

/-- The fields of a STATE word from bit 31 down (R42). -/
theorem stateWord_fields (s : State) :
    (stateWord s).extractLsb' 20 12 = 0 ∧ (stateWord s).extractLsb' 16 4 = s.tunedBw ∧
    (stateWord s).extractLsb' 14 2 = 0 ∧ (stateWord s).extractLsb' 13 1 = flagBit s.tunedValid ∧
    (stateWord s).extractLsb' 12 1 = flagBit s.rep ∧ (stateWord s).extractLsb' 10 2 = 0 ∧
    (stateWord s).extractLsb' 8 2 = s.sub.code ∧ (stateWord s).extractLsb' 6 2 = 0 ∧
    (stateWord s).extractLsb' 4 2 = s.sys.code ∧ (stateWord s).extractLsb' 2 2 = 0 ∧
    (stateWord s).extractLsb' 0 2 = s.ds.code := by
  have packed := stateWord.eq_def s
  simp only [eq_append_iff (m := 30) (n := 2), eq_append_iff (m := 28) (n := 2), eq_append_iff (m := 26) (n := 2),
    eq_append_iff (m := 24) (n := 2), eq_append_iff (m := 22) (n := 2), eq_append_iff (m := 20) (n := 2),
    eq_append_iff (m := 19) (n := 1), eq_append_iff (m := 18) (n := 1), eq_append_iff (m := 16) (n := 2),
    eq_append_iff (m := 12) (n := 4)] at packed
  simpa [extractLsb'_extractLsb', and_assoc] using packed

/-- Settles O39, by the fields of the word. -/
theorem getStateWord : Obligations.GetStateWord := by
  intro s
  obtain ⟨high, bw, gap14, valid, rep, gap10, sub, gap6, sys, gap2, ds⟩ := stateWord_fields s
  exact ⟨stateWord s, rfl, ds, gap2, sys, gap6, sub, gap10, getLsbD_of_flagBit rep, getLsbD_of_flagBit valid, gap14, bw,
    high⟩

end Sys2Proof.Proofs
end

section
/-! INIT and SLEEP (R220, R225, R250, R252). -/

namespace Sys2Proof.Proofs

open Sys2Proof.Machine Sys2Proof.Claims

variable {s : State} {r : Run} {rest : List Answer}

theorem enterColdboot_of_ok {b0 b1 b2 b3 : Byte} (henv : s.env = .ok b0 b1 b2 b3 :: rest) :
    enterColdboot r s = { s with
      rep := true, env := rest, history := s.history ++ [.setRepeater true true], run := inPhase r .initTuner } := by
  rw [enterColdboot, openRepeater_of_ok henv]
  rfl

theorem enterColdboot_of_err {a : Answer} (henv : s.env = .err :: a :: rest) :
    enterColdboot r s = ended { s with
      rep := if a.isOk then false else s.rep
      env := rest
      history := s.history ++ [.setRepeater true false, .setRepeater false a.isOk] } .hardwareIoError [] := by
  rw [enterColdboot, openRepeater_of_err henv]
  rfl

theorem finishInit_of_ok {b0 b1 b2 b3 : Byte} (henv : s.env = .ok b0 b1 b2 b3 :: rest) :
    finishInit s = ended { s with
      ds := .sleep, sys := .unknown, sub := .none, tunedValid := false
      rep := false, env := rest, history := s.history ++ [.setRepeater false true] } .ok [] := by
  rw [finishInit, closeRepeater, setRepeater_of_ok false henv]
  rfl

theorem finishInit_of_err (henv : s.env = .err :: rest) :
    finishInit s = ended { s with env := rest, history := s.history ++ [.setRepeater false false] }
      .hardwareIoError [] := by
  rw [finishInit, closeRepeater, setRepeater_of_err false henv]
  rfl

/-- Settles O30, by the answers to the repeater calls that open and close the cold boot's bracket. -/
theorem initRunsItsSequences : Obligations.InitRunsItsSequences := by
  refine ⟨fun _ => rfl, fun _ => ⟨rfl, rfl⟩, fun s r hr => ?_⟩
  have demodEnds (hp : r.phase = .initDemod) : exec .endSeq s = .next (enterColdboot r s) := by
    rw [exec_endSeq hr, afterSequence, hp]
  have coldbootEnds (hp : r.phase = .initTuner) : exec .endSeq s = .next (finishInit s) := by
    rw [exec_endSeq hr, afterSequence, hp]
  exact ⟨fun _ _ _ _ _ hp henv => by rw [demodEnds hp, enterColdboot_of_ok henv],
    fun _ _ hp henv => by rw [demodEnds hp, enterColdboot_of_err henv],
    fun _ _ _ _ _ hp henv => by rw [coldbootEnds hp, finishInit_of_ok henv],
    fun _ hp henv => by rw [coldbootEnds hp, finishInit_of_err henv]⟩

theorem exec_sleep_of_not_active (h : s.ds ≠ .active) : exec .sleep s = .next (respond .ok [] (sleepFields s)) := by
  simp only [exec, execSleep]
  cases hds : s.ds with
  | active => exact absurd hds h
  | unknown | sleep => rfl

theorem exec_sleep_of_active {old : System} (hds : s.ds = .active) (hsys : s.sys = systemValue old) :
    exec .sleep s = .next (startRun (.sleep old) none s) := by
  simp only [exec, execSleep, hds, hsys, system?_systemValue]

/-- Settles O31: at once outside Active, and in Active by the sequence's entry and its END. -/
theorem sleepTransition : Obligations.SleepTransition := by
  refine ⟨fun s => exec_sleep_of_not_active,
    fun s old hds hsys => ⟨exec_sleep_of_active hds hsys, a2sSequence_number old⟩, fun s r old hr hp => ?_⟩
  rw [exec_endSeq hr, afterSequence, hp]
  rfl

end Sys2Proof.Proofs
end

section
/-! The metric commands that compute an i32 or two (R295 to R298): RSSI_T, RSSI_S and CNR_T. -/

namespace Sys2Proof.Proofs

open Sys2Proof.Machine Sys2Proof.Claims

variable {s : State} {c : Config}

/-! ### A command of one i32 -/

/-- The end of a command whose one result is an i32 (R11). -/
def finishI32 (v : Calc Int) (s : State) : Host.Outcome State Fault Refusal :=
  finish (v.bind fun n => .value [bits32 n]) s

theorem finishI32_of_fault (hs : s.faultReason = none) (x : FaultReason) :
    finishI32 (.fault x) s = .next (faultedWith s x) := by
  rw [← raiseFault_eq_faultedWith hs]
  rfl

theorem finishI32_of_inI32 {n : Int} (h : InI32 n) (s : State) :
    ∃ w : Word, w.toInt = n ∧ finishI32 (toI32 n) s = .next (ended s .ok [w]) :=
  ⟨bits32 n, toInt_bits32 h, by rw [toI32_of_inI32 h]; rfl⟩

theorem finishI32_of_not_inI32 (hs : s.faultReason = none) {n : Int} (h : ¬InI32 n) :
    finishI32 (toI32 n) s = .next (faultedWith s .resultRange) := by
  rw [toI32_of_not_inI32 h, finishI32_of_fault hs]

/-! ### RSSI_T (R295) -/

theorem exec_rssiT (agc f : Word) (s : State) : exec (.rssiT agc f) s = finishI32 (rssiTCalc s.cfg agc f) s := rfl

theorem rssiTCalc_of_no_range {agc f : Word}
    (h : ∀ k ∈ c.rssiTRanges, ¬(k.fLo.toNat ≤ f.toNat ∧ f.toNat < k.fHi.toNat)) :
    rssiTCalc c agc f = .fault .rssiFreqNoRange := by
  unfold rssiTCalc
  rw [List.find?_eq_none.mpr fun k hk => by simpa using h k hk]

theorem find?_of_firstRange {ranges : List RssiRange} {f : Word} {k : RssiRange} (h : FirstRange ranges f k) :
    ranges.find? (fun r => decide (r.fLo.toNat ≤ f.toNat) && decide (f.toNat < r.fHi.toNat)) = some k := by
  obtain ⟨before, after, hranges, inside, hbefore⟩ := h
  refine List.find?_eq_some_iff_append.mpr ⟨by simpa using inside, before, after, hranges, fun r hr => ?_⟩
  simpa [imp_iff_not_or] using hbefore r hr

/-- The scaled AGC must be an i32 (R295). -/
theorem rssiTCalc_of_large {agc f : Word} {k : RssiRange} (h : FirstRange c.rssiTRanges f k)
    (large : 2 ^ 31 ≤ agc.toNat * c.rssiTScale.toNat) : rssiTCalc c agc f = .fault .resultRange := by
  rw [rssiTCalc, find?_of_firstRange h]
  have outOfRange : ¬InI32 (agc.toNat * c.rssiTScale.toNat : Nat) := fun inRange => absurd inRange.2 (by omega)
  simp only [toI32_of_not_inI32 outOfRange, Calc.bind]

/-- Where the scaled AGC is an i32 and the range's model exists, the model's value is left to calibrate. -/
theorem rssiTCalc_of_model {agc f : Word} {k : RssiRange} {model : List PwlSegment}
    (h : FirstRange c.rssiTRanges f k) (fits : agc.toNat * c.rssiTScale.toNat < 2 ^ 31)
    (hmodel : c.pwlModels[k.model.toNat]? = some model) :
    rssiTCalc c agc f =
      (pwlEval (agc.toNat * c.rssiTScale.toNat : Nat) model).bind fun g => toI32 (g + c.rssiTCal.toInt) := by
  rw [rssiTCalc, find?_of_firstRange h]
  have inRange : InI32 (agc.toNat * c.rssiTScale.toNat : Nat) := by constructor <;> omega
  simp only [toI32_of_inI32 inRange, Calc.bind, hmodel]

/-- Settles O21, stage by stage: the range, the scaled AGC, the segment, and the two i32 results. -/
theorem rssiTOutcome : Obligations.RssiTOutcome := by
  intro s agc f hs
  rw [exec_rssiT]
  refine ⟨fun outside => ?_, fun k first => ⟨fun large => ?_, fun model fits hmodel wf => ?_⟩⟩
  · rw [rssiTCalc_of_no_range outside, finishI32_of_fault hs]
  · rw [rssiTCalc_of_large first large, finishI32_of_fault hs]
  · rw [rssiTCalc_of_model first fits hmodel]
    refine ⟨fun outside => ?_, fun g n segment hn => ?_⟩
    · rw [pwlEval_of_none outside]
      exact finishI32_of_fault hs _
    · rw [pwlEval_of_first segment (den_ne_zero_of_wf wf (firstSegment_mem segment)), ← hn]
      by_cases inRange : InI32 n
      · rw [toI32_of_inI32 inRange, Calc.bind]
        exact ⟨fun h => finishI32_of_inI32 h.2 s,
          fun h => finishI32_of_not_inI32 hs (h.resolve_left (not_not_intro inRange))⟩
      · rw [toI32_of_not_inI32 inRange]
        exact ⟨fun h => absurd h.1 inRange, fun _ => finishI32_of_fault hs _⟩

/-! ### RSSI_S (R296) -/

theorem exec_rssiS (agc : Word) (s : State) : exec (.rssiS agc) s = finishI32 (rssiSCalc s.cfg agc) s := rfl

theorem rssiSCalc_eq (agc : Word) (hdiv : c.rssiSDiv ≠ 0) :
    rssiSCalc c agc =
      toI32 (c.rssiSOffset.toInt - (roundedQuotient agc.toNat c.rssiSDiv.toNat : Nat)) := by
  rw [rssiSCalc, if_neg hdiv, rdiv_eq_roundedQuotient _ (Nat.pos_of_ne_zero (toNat_ne_zero hdiv))]

/-- Settles O22: `rdiv` is the rounded quotient (R177), and the i32 range decides. -/
theorem rssiSOutcome : Obligations.RssiSOutcome := by
  intro s agc hdiv hs
  rw [exec_rssiS, rssiSCalc_eq agc hdiv]
  exact ⟨fun inRange => finishI32_of_inI32 inRange s, finishI32_of_not_inI32 hs⟩

/-! ### The relative scale (R298) -/

/-- The interpolated value, between the two ends of the scale. -/
theorem relativeScale_between {lo hi n : Int} (hlo : lo < n) (hhi : n < hi) :
    relativeScale lo hi n = (n - lo) * 100 / (hi - lo) := by
  rw [relativeScale, if_neg (by omega), if_neg (by omega)]

theorem relativeScale_bounds (lo hi n : Int) : 0 ≤ relativeScale lo hi n ∧ relativeScale lo hi n ≤ 100 := by
  by_cases hlo : n ≤ lo
  · simp [relativeScale, hlo]
  · by_cases hhi : hi ≤ n
    · simp [relativeScale, hlo, hhi]
    · have width : 0 < hi - lo := by omega
      rw [relativeScale_between (by omega) (by omega)]
      exact ⟨Int.ediv_nonneg (by omega) width.le, Int.ediv_le_of_le_mul width (by omega)⟩

theorem relativeScale_mono {lo hi m n : Int} (h : m ≤ n) : relativeScale lo hi m ≤ relativeScale lo hi n := by
  by_cases hlo : m ≤ lo
  · have bottom : relativeScale lo hi m = 0 := if_pos hlo
    rw [bottom]
    exact (relativeScale_bounds lo hi n).1
  · by_cases hhi : hi ≤ n
    · have top : relativeScale lo hi n = 100 := by rw [relativeScale, if_neg (by omega), if_pos hhi]
      rw [top]
      exact (relativeScale_bounds lo hi m).2
    · rw [relativeScale_between (by omega) (by omega), relativeScale_between (by omega) (by omega)]
      exact Int.ediv_le_ediv (by omega) (by omega)

theorem relScale_eq_relativeScale (c : Config) (n : Int) :
    relScale c n = relativeScale c.cnrRelLo.toInt c.cnrRelHi.toInt n := rfl

theorem attach_of_not_wf (h : configWf c ≠ true) : attach c = .refused (.illFormedConfig .refusedAtAttach) := if_neg h

theorem cnrRelLo_lt_of_wf (h : configWf c = true) : c.cnrRelLo.toInt < c.cnrRelHi.toInt := by
  simp only [configWf, Config.tablesWf, Bool.and_eq_true, decide_eq_true_eq] at h
  tauto

/-- Settles O24, by the bounds and the monotonicity of the formula. -/
theorem relativeScaleClamped : Obligations.RelativeScaleClamped := by
  refine ⟨fun c _ m n => ?_, fun c h => attach_of_not_wf fun wf => absurd (cnrRelLo_lt_of_wf wf) (by omega)⟩
  simp only [relScale_eq_relativeScale]
  exact ⟨trivial, (relativeScale_bounds ..).1, (relativeScale_bounds ..).2, relativeScale_mono⟩

/-! ### CNR_T (R297) -/

/-- The end of CNR_T: cnr and its relative scale. -/
theorem exec_cnrT (snr : Word) (s : State) :
    exec (.cnrT snr) s =
      finish ((cnrTCalc s.cfg snr).bind fun p => .value [bits32 p.1, bits32 p.2]) s := rfl

theorem cnrTCalc_eq (snr : Word) :
    cnrTCalc c snr =
      (toI32 (c.cnrTMul.toInt * (log10Fixed c.log2FracTable snr : Nat) + c.cnrTOff.toInt)).bind fun cnr =>
      .value (cnr, relativeScale c.cnrRelLo.toInt c.cnrRelHi.toInt cnr) := rfl

/-- Settles O23: the scaled LOG10 decides, and the relative scale is always an i32. -/
theorem cnrTOutcome : Obligations.CnrTOutcome := by
  intro s snr hs
  refine ⟨_, exec_log10 snr s, ?_⟩
  rw [toNat_log10Fixed]
  intro cnr
  rw [exec_cnrT, cnrTCalc_eq]
  refine ⟨fun inRange => ?_, fun outOfRange => ?_⟩
  · obtain ⟨low, high⟩ := relativeScale_bounds s.cfg.cnrRelLo.toInt s.cfg.cnrRelHi.toInt cnr
    refine ⟨bits32 cnr, bits32 _, toInt_bits32 inRange, toInt_bits32 (by constructor <;> omega), ?_⟩
    rw [toI32_of_inI32 inRange]
    rfl
  · rw [toI32_of_not_inI32 outOfRange, ← raiseFault_eq_faultedWith hs]
    rfl

end Sys2Proof.Proofs
end

section
/-! CNR_S (R299, R300): the table its selection chooses, and the scan of R165 on it. -/

namespace Sys2Proof.Proofs

open Sys2Proof.Machine Sys2Proof.Claims

variable {s : State} {c : Config} {sys : BitVec 3} {sel : CnrSelect} {code rate : Word} {id : Nat}

/-! ### The selection (R300; log 14) -/

/-- A symbol rate below every listed threshold leaves the id as it is. -/
theorem tableId_of_none_reached {base : Nat} {l : List (Word × Nat)} (h : ∀ p ∈ l, rate.toNat < p.1.toNat) :
    CnrSelect.tableId { base := base, thresholds := l } rate = base := by
  induction l with
  | nil => rfl
  | cons p l ih =>
    obtain ⟨hp, hl⟩ := List.forall_mem_cons.mp h
    rw [CnrSelect.tableId, List.foldl_cons, if_neg (by omega)]
    exact ih hl

/-- The thresholds before one that is reached have no say. -/
theorem tableId_of_reached {base id : Nat} {before after : List (Word × Nat)} {thr : Word} (h : thr.toNat ≤ rate.toNat) :
    CnrSelect.tableId { base := base, thresholds := before ++ (thr, id) :: after } rate =
      CnrSelect.tableId { base := id, thresholds := after } rate := by
  simp only [CnrSelect.tableId, List.foldl_append, List.foldl_cons, if_pos h]

theorem tableId_of_selected (h : Selected sel rate id) : sel.tableId rate = id := by
  obtain ⟨base, l⟩ := sel
  obtain ⟨rfl, none⟩ | ⟨before, thr, after, rfl, reached, none⟩ := h
  · exact tableId_of_none_reached none
  · rw [tableId_of_reached reached, tableId_of_none_reached none]

/-- Of the thresholds none is reached, or there is a last one that is. -/
theorem exists_selected (sel : CnrSelect) (rate : Word) : ∃ id, Selected sel rate id := by
  obtain ⟨base, l⟩ := sel
  induction l with
  | nil => exact ⟨base, .inl ⟨rfl, nofun⟩⟩
  | cons p l ih =>
    obtain ⟨id, ⟨rfl, none⟩ | ⟨before, thr, after, rfl, reached, none⟩⟩ := ih
    · by_cases hp : p.1.toNat ≤ rate.toNat
      · exact ⟨p.2, .inr ⟨[], p.1, l, rfl, hp, none⟩⟩
      · exact ⟨_, .inl ⟨rfl, List.forall_mem_cons.mpr ⟨Nat.lt_of_not_le hp, none⟩⟩⟩
    · exact ⟨id, .inr ⟨p :: before, thr, after, rfl, reached, none⟩⟩

theorem selected_tableId (sel : CnrSelect) (rate : Word) : Selected sel rate (sel.tableId rate) := by
  obtain ⟨id, h⟩ := exists_selected sel rate
  rwa [tableId_of_selected h]

/-- With one threshold, the id below it and the one from it on. -/
theorem selected_of_one_threshold (below above : Nat) (thr rate : Word) :
    Selected { base := below, thresholds := [(thr, above)] } rate
      (if rate.toNat < thr.toNat then below else above) := by
  by_cases h : rate.toNat < thr.toNat
  · rw [if_pos h]
    exact .inl ⟨rfl, List.forall_mem_singleton.mpr h⟩
  · rw [if_neg h]
    exact .inr ⟨[], thr, [], rfl, Nat.le_of_not_lt h, nofun⟩

/-! ### The table it chooses -/

/-- SYS 2 and 3 of CNR_S and the selection of each (R299, R300). -/
def SelectionOf (c : Config) (sys : BitVec 3) (sel : CnrSelect) : Prop :=
  (sys = 2 ∧ sel = c.cnrSelectS) ∨ (sys = 3 ∧ sel = c.cnrSelectS3)

theorem exec_cnrS (h : SelectionOf s.cfg sys sel) (code rate : Word) :
    exec (.cnrS sys code rate) s = finish ((cnrSCalc s.cfg sel code rate).bind fun v => .value [v]) s := by
  obtain ⟨rfl, rfl⟩ | ⟨rfl, rfl⟩ := h <;> rfl

theorem cnrTables_of_wf (h : configWf c = true) :
    (∀ tab ∈ c.cnrTables, cnrTableWf tab = true) ∧
    c.cnrSelectS.wf c.cnrTables.length = true ∧ c.cnrSelectS3.wf c.cnrTables.length = true := by
  simp only [configWf, Config.tablesWf, Bool.and_eq_true, List.all_eq_true] at h
  tauto

/-- In a well-formed configuration the selected table exists, has an entry, and has its codes in order. -/
theorem exists_table (wf : configWf c = true) (h : SelectionOf c sys sel) (rate : Word) :
    ∃ e rest, c.cnrTables[sel.tableId rate]? = some (e :: rest) ∧ rest.Pairwise HigherCode := by
  obtain ⟨tables, selectS, selectS3⟩ := cnrTables_of_wf wf
  have exists_id : sel.tableId rate < c.cnrTables.length := by
    obtain ⟨-, rfl⟩ | ⟨-, rfl⟩ := h
    · exact (CnrSelect.wf_iff ..).mp selectS rate
    · exact (CnrSelect.wf_iff ..).mp selectS3 rate
  have htab := List.getElem?_eq_getElem exists_id
  obtain ⟨nonempty, codes⟩ := (Bool.and_eq_true _ _).mp (tables _ (List.getElem_mem exists_id))
  cases hcases : c.cnrTables[sel.tableId rate] with
  | nil => rw [hcases] at nonempty; cases nonempty
  | cons e rest =>
    rw [hcases] at codes
    exact ⟨e, rest, htab.trans (congrArg some hcases), (List.pairwise_cons.mp ((codesDecrease_iff _).mp codes)).2⟩

theorem exec_cnrS_of_table (h : SelectionOf s.cfg sys sel) {e : CnrEntry} {rest : List CnrEntry}
    (htab : s.cfg.cnrTables[sel.tableId rate]? = some (e :: rest)) (code : Word) :
    exec (.cnrS sys code rate) s = .next (ended s .ok [scanTable e.value code rest]) := by
  rw [exec_cnrS h, cnrSCalc, htab]
  rfl

theorem exec_cnrS_eq_tlookup (wf : configWf s.cfg = true) (h : SelectionOf s.cfg sys sel)
    (hid : Selected sel rate id) (small : id < 256) :
    exec (.cnrS sys code rate) s = exec (.tlookup (BitVec.ofNat 8 id) code) s := by
  obtain ⟨e, rest, htab, -⟩ := exists_table wf h rate
  rw [exec_cnrS_of_table h htab]
  rw [tableId_of_selected hid] at htab
  refine (exec_tlookup ?_ code).symm
  rwa [BitVec.toNat_ofNat, Nat.mod_eq_of_lt small]

/-- Settles O25: the scan on the selected table, and the forms of R300 as instances of the selection. -/
theorem cnrSIsTlookup : Obligations.CnrSIsTlookup := by
  intro s sys code symrate sel wf h
  have tlookup {id : Nat} (hid : Selected sel symrate id) (small : id < 256) :=
    exec_cnrS_eq_tlookup (code := code) wf h hid small
  refine ⟨?_, fun _ => tlookup, fun _ hsel => ?_, fun _ hsel => ?_, fun thr below above hsel => ?_⟩
  · obtain ⟨e, rest, htab, dec⟩ := exists_table wf h symrate
    obtain ⟨j, index, f, found, value⟩ := scanTable_lookupIndex code (e := e) dec
    exact ⟨_, _, j, f, selected_tableId sel symrate, htab, index, found, by rw [exec_cnrS_of_table h htab, value]⟩
  · exact tlookup (id := 0) (hsel ▸ .inl ⟨rfl, nofun⟩) (by decide)
  · exact tlookup (id := 1) (hsel ▸ .inl ⟨rfl, nofun⟩) (by decide)
  · exact tlookup (hsel ▸ selected_of_one_threshold below above thr symrate)

end Sys2Proof.Proofs
end

section
/-! Procedures that read register fields (R64, R67): the events they issue and the values they read, whatever the environment
answers. -/

namespace Sys2Proof.Proofs

open Sys2Proof.Machine Sys2Proof.Claims

/-! ### Multi-byte values (R64) -/

theorem assembled_le_cons (b : Byte) (bytes : List Byte) :
    assembled .le (b :: bytes) = b.toNat + 256 * assembled .le bytes := by
  have shifted (i : Nat) (x : Byte) : x.toNat * 2 ^ (8 * (i + 1)) = 256 * (x.toNat * 2 ^ (8 * i)) := by
    rw [Nat.mul_add, Nat.pow_add]
    ring
  simp [assembled, List.range_succ_eq_map, Function.comp_def, shifted, List.sum_map_mul_left]

theorem assembled_le (bytes : List Byte) : assembled .le bytes = assembleLe bytes := by
  induction bytes with
  | nil => rfl
  | cons b bytes ih => rw [assembled_le_cons, assembleLe, ih]

theorem assembled_be_concat (bytes : List Byte) (b : Byte) :
    assembled .be (bytes ++ [b]) = assembled .be bytes * 256 + b.toNat := by
  have shifted : ∀ i ∈ List.range bytes.length,
      (((bytes ++ [b])[i]?).getD 0).toNat * 2 ^ (8 * (bytes.length - i)) =
        ((bytes[i]?).getD 0).toNat * 2 ^ (8 * (bytes.length - 1 - i)) * 256 := by
    intro i hi
    have hlt := List.mem_range.mp hi
    have split : 8 * (bytes.length - i) = 8 * (bytes.length - 1 - i) + 8 := by omega
    rw [List.getElem?_append_left hlt, split, Nat.pow_add, Nat.mul_assoc]
  simp only [assembled, List.length_append, List.length_singleton, Nat.add_sub_cancel, List.range_succ,
    List.map_append, List.sum_append]
  rw [List.map_congr_left shifted, List.sum_map_mul_right]
  simp

theorem assembled_be (bytes : List Byte) : assembled .be bytes = assembleBe bytes := by
  induction bytes using List.reverseRecOn with
  | nil => rfl
  | append_singleton bytes b ih => rw [assembled_be_concat, ih, assembleBe, assembleBe, List.foldl_concat]

/-- The value of a field as `ReadField` computes it. -/
theorem assemble_eq_fieldValue (c : Config) (f : RegField) (bytes : List Byte) :
    (assemble c.mbOrder bytes >>> f.shift.toNat) &&& f.mask = fieldValue c f bytes := by
  rw [fieldValue]
  cases c.mbOrder with
  | be => rw [assembled_be]; rfl
  | le => rw [assembled_le]; rfl

/-! ### Events -/

/-- From `s` to `t` the events `es` were issued, none of them a repeater call: only the answers to come, the draw counter and
the history differ. -/
structure Issued (s : State) (es : List Event) (t : State) : Prop where
  state : ∃ env draws, t = { s with env := env, draws := draws, history := s.history ++ es }
  quiet : ∀ b ok, .setRepeater b ok ∉ es

/-- The events `es` are those of reading the fields `fs`, all of which succeeded, with the values `vs`. -/
structure FieldsRead (c : Config) (fs : List RegField) (vs : List Word) (es : List Event) : Prop where
  events : es.map failedEvent = fs.flatMap (fieldReads c)
  values : List.zipWith (fieldValue c) fs (readings es) = vs
  complete : fs.length = (readings es).length
  succeeded : ∀ e ∈ es, e.failed = false

/-- The outcome from `s` of a procedure that reads fields, stops at the first primitive that fails, and otherwise gives a
result that `post` allows with the fields and their values. -/
def Reads {α : Type} (s : State) (post : List RegField → List Word → α → Prop) : Res α → Prop
  | .ok a t => ∃ es fs vs, Issued s es t ∧ FieldsRead s.cfg fs vs es ∧ post fs vs a
  | .err t => ∃ pre e, Issued s (pre ++ [e]) t ∧ (∀ x ∈ pre, x.failed = false) ∧ e.failed = true

variable {s t u : State} {c : Config} {es es' : List Event} {fs fs' : List RegField} {vs vs' : List Word}

namespace Issued

theorem nil (s : State) : Issued s [] s := ⟨⟨s.env, s.draws, by simp⟩, by simp⟩

theorem one (s : State) {e : Event} (he : ∀ b ok, e ≠ .setRepeater b ok) : Issued s [e] (s.drawn.record e) where
  state := by
    unfold State.drawn
    split <;> exact ⟨_, _, rfl⟩
  quiet b ok := by simpa using (he b ok).symm

theorem trans (h : Issued s es t) (k : Issued t es' u) : Issued s (es ++ es') u := by
  obtain ⟨⟨_, _, rfl⟩, quiet⟩ := h
  obtain ⟨⟨env, draws, rfl⟩, quiet'⟩ := k
  exact ⟨⟨env, draws, by simp⟩, fun b ok => by simp [quiet b ok, quiet' b ok]⟩

theorem cfg (h : Issued s es t) : t.cfg = s.cfg := by obtain ⟨⟨_, _, rfl⟩, -⟩ := h; rfl

theorem rep (h : Issued s es t) : t.rep = s.rep := by obtain ⟨⟨_, _, rfl⟩, -⟩ := h; rfl

theorem history (h : Issued s es t) : t.history = s.history ++ es := by obtain ⟨⟨_, _, rfl⟩, -⟩ := h; rfl

/-- A response writes none of the fields either. -/
theorem respond_sameFields (h : Issued s es t) (st : Status) (ws : List Word) : SameFields s (respond st ws t) := by
  obtain ⟨⟨_, _, rfl⟩, -⟩ := h
  exact ⟨rfl, rfl, rfl, rfl, rfl, rfl, rfl, rfl, rfl, rfl⟩

end Issued

/-! ### Composition -/

theorem readings_append (es es' : List Event) : readings (es ++ es') = readings es ++ readings es' :=
  List.filterMap_append

theorem FieldsRead.nil (c : Config) : FieldsRead c [] [] [] := ⟨rfl, rfl, rfl, by simp⟩

theorem FieldsRead.append (h : FieldsRead c fs vs es) (k : FieldsRead c fs' vs' es') :
    FieldsRead c (fs ++ fs') (vs ++ vs') (es ++ es') where
  events := by rw [List.map_append, List.flatMap_append, h.events, k.events]
  values := by rw [readings_append, List.zipWith_append h.complete, h.values, k.values]
  complete := by rw [readings_append, List.length_append, List.length_append, h.complete, k.complete]
  succeeded e he := (List.mem_append.mp he).elim (h.succeeded e) (k.succeeded e)

variable {α β : Type} {r : Res α} {f : α → State → Res β} {post : List RegField → List Word → α → Prop}
  {post' : List RegField → List Word → β → Prop}

theorem reads_ok {a : α} (h : post [] [] a) : Reads s post (.ok a s) :=
  ⟨[], [], [], .nil s, .nil s.cfg, h⟩

theorem Reads.bind (h : Reads s post r)
    (k : ∀ fs vs a es t, Issued s es t → post fs vs a →
      Reads t (fun fs' vs' => post' (fs ++ fs') (vs ++ vs')) (f a t)) : Reads s post' (r.bind f) := by
  cases r with
  | err t => exact h
  | ok a t =>
    obtain ⟨es, fs, vs, issued, read, ha⟩ := h
    have next := k fs vs a es t issued ha
    show Reads s post' (f a t)
    cases hf : f a t with rw [hf] at next
    | ok b u =>
      obtain ⟨es', fs', vs', issued', read', hb⟩ := next
      rw [issued.cfg] at read'
      exact ⟨_, _, _, issued.trans issued', read.append read', hb⟩
    | err u =>
      obtain ⟨pre, e, issued', clean, failed⟩ := next
      refine ⟨es ++ pre, e, by simpa using issued.trans issued', fun x hx => ?_, failed⟩
      exact (List.mem_append.mp hx).elim (read.succeeded x) (clean x)

/-! ### One field (R67) -/

/-- The bank select of a field: a write of a banked one, and nothing else. -/
theorem selectBank_issues (f : RegField) (s : State) :
    (∃ es t, selectBank (s.cfg.addr f.tgt) f.bank s = .ok () t ∧ Issued s es t ∧ (∀ e ∈ es, e.failed = false) ∧
      readings es = [] ∧
      es.map failedEvent ++ [.busRead (s.cfg.addr f.tgt) f.reg f.len none] = fieldReads s.cfg f) ∨
    (∃ e t, selectBank (s.cfg.addr f.tgt) f.bank s = .err t ∧ Issued s [e] t ∧ e.failed = true) := by
  unfold fieldReads selectBank
  rw [addressOf_eq_addr]
  cases f.bank with
  | none => exact .inl ⟨[], s, rfl, .nil s, by simp, rfl, rfl⟩
  | some b =>
    obtain ⟨-, e⟩ | ⟨-, e⟩ := busWrite_cases (s.cfg.addr f.tgt) s.cfg.bankSelectReg b s
    · exact .inl ⟨_, _, e, .one s nofun, by simp [Event.failed], rfl, rfl⟩
    · exact .inr ⟨_, _, e, .one s nofun, rfl⟩

/-- The events before a field's read select its bank and read nothing. -/
theorem fieldsRead_one {f : RegField} {bytes : List Byte}
    (select : es.map failedEvent ++ [.busRead (c.addr f.tgt) f.reg f.len none] = fieldReads c f)
    (quiet : readings es = []) (clean : ∀ e ∈ es, e.failed = false) :
    FieldsRead c [f] [fieldValue c f bytes] (es ++ [.busRead (c.addr f.tgt) f.reg f.len (some bytes)]) := by
  have read : readings (es ++ [.busRead (c.addr f.tgt) f.reg f.len (some bytes)]) = [bytes] := by
    rw [readings_append, quiet]
    rfl
  refine ⟨by simpa [failedEvent] using select, by rw [read]; rfl, by rw [read]; rfl, fun e he => ?_⟩
  obtain he | he := List.mem_append.mp he
  · exact clean e he
  · rw [List.mem_singleton.mp he]
    rfl

theorem readField_reads (f : RegField) (s : State) :
    Reads s (fun fs vs v => fs = [f] ∧ vs = [v]) (readField f s) := by
  unfold readField
  obtain ⟨es, t, select, issued, clean, quiet, events⟩ | ⟨e, t, select, issued, failed⟩ := selectBank_issues f s <;>
    rw [select]
  · show Reads s _ ((busRead (t.cfg.addr f.tgt) f.reg f.len t).bind _)
    rw [issued.cfg]
    obtain ⟨bytes, -, -, e⟩ | ⟨-, e⟩ := busRead_cases (s.cfg.addr f.tgt) f.reg f.len t <;> rw [e]
    · have issued := issued.trans (.one t (e := .busRead (s.cfg.addr f.tgt) f.reg f.len (some bytes)) nofun)
      refine ⟨_, [f], _, issued, fieldsRead_one events quiet clean, rfl, ?_⟩
      rw [issued.cfg, assemble_eq_fieldValue]
    · exact ⟨es, _, issued.trans (.one t nofun), clean, rfl⟩
  · exact ⟨[], e, issued, by simp, failed⟩

/-- A procedure that reads a field and goes on with its value. -/
theorem reads_readField_bind {f : RegField} {k : Word → State → Res β}
    (h : ∀ v es t, Issued s es t → Reads t (fun fs vs => post' (f :: fs) (v :: vs)) (k v t)) :
    Reads s post' ((readField f s).bind k) := by
  refine (readField_reads f s).bind fun _ _ v es t issued read => ?_
  obtain ⟨rfl, rfl⟩ := read
  exact h v es t issued

end Sys2Proof.Proofs
end

section
/-! READ_STATUS (R290 to R294): what it reads, and what each result word is made of. -/

namespace Sys2Proof.Proofs

open Sys2Proof.Machine Sys2Proof.Claims

/-! ### What its parts read -/

/-- SYMRATE_FIELD's reading, where there is such a field (R300). -/
def SymrateRead (c : Config) (vs : List Word) (rate : Word) : Prop :=
  (c.symrateField.isSome = true ∧ vs = [rate]) ∨ (c.symrateField.isSome = false ∧ vs = [] ∧ rate = 0)

/-- The fields and values behind the carrier-to-noise ratio and the relative scale (R290). -/
inductive CnrRead (c : Config) :
    System → Bool → List RegField → List Word → Option Word × Option Word → Prop where
  | unlocked (sy : System) : CnrRead c sy false [] [] (none, none)
  | isdbT (snr : Word) :
      CnrRead c .isdbT true [c.snrFieldT] [snr]
        ((cnrTCalc c snr).avail.map (bits32 ·.1), (cnrTCalc c snr).avail.map (bits32 ·.2))
  | isdbS {vs : List Word} {rate : Word} (h : SymrateRead c vs rate) (code : Word) :
      CnrRead c .isdbS true (c.symrateField.toList ++ [c.cnrFieldS]) (vs ++ [code])
        ((cnrSCalc c c.cnrSelectS code rate).avail, none)
  | isdbS3 {vs : List Word} {rate : Word} (h : SymrateRead c vs rate) (code : Word) :
      CnrRead c .isdbS3 true (c.symrateField.toList ++ [c.cnrFieldS3]) (vs ++ [code])
        ((cnrSCalc c c.cnrSelectS3 code rate).avail, none)

/-- The fields and values behind the packet error rate (R290). -/
inductive PerRead (c : Config) : System → List RegField → List Word → Option Nat → Prop where
  | isdbT (e w : Word) : PerRead c .isdbT [c.errcntField, c.wincntField] [e, w] (perCalc e.toNat w.toNat).avail
  | isdbS : PerRead c .isdbS [] [] none
  | isdbS3 : PerRead c .isdbS3 [] [] none

/-- The five result words (R290, R291). -/
def statusResults (full : Bool) (rf : Option Int) (cnr : Option Word × Option Word) (per : Option Nat) : List Word :=
  [flagsWord full rf.isSome cnr.1.isSome cnr.2.isSome per.isSome,
    (rf.map bits32).getD 0, cnr.1.getD 0, cnr.2.getD 0, (per.map (BitVec.ofNat 32)).getD 0]

/-- The values a READ_STATUS reads, and the result words it makes of them. -/
inductive StatusRead (s : State) (sy : System) (full : Bool) : List Word → List Word → Prop where
  | intro {locks : List Word} {agc : Word} {cnrFields perFields : List RegField} {cnrValues perValues : List Word}
      {cnr : Option Word × Option Word} {per : Option Nat}
      (length : locks.length = (s.cfg.lockCond.get sy).length)
      (lock : full = true ↔ locks = (s.cfg.lockCond.get sy).map Prod.snd)
      (cnrRead : CnrRead s.cfg sy full cnrFields cnrValues cnr) (perRead : PerRead s.cfg sy perFields perValues per) :
      StatusRead s sy full (locks ++ agc :: (cnrValues ++ perValues))
        (statusResults full (rfLevel sy agc s) cnr per)

variable {s t : State} {c : Config} {sy : System} {es : List Event} {fs : List RegField} {vs ws : List Word}

theorem readLock_reads (l : List (RegField × Word)) (s : State) :
    Reads s (fun fs vs full => fs = l.map Prod.fst ∧ vs.length = l.length ∧ (full = true ↔ vs = l.map Prod.snd))
      (readLock l s) := by
  induction l generalizing s with
  | nil => exact reads_ok (by simp)
  | cons p rest ih =>
    refine reads_readField_bind fun v _ t _ => (ih t).bind fun _ _ full _ u _ ⟨hfs, hlen, hfull⟩ => ?_
    exact reads_ok (by simp [hfs, hlen, hfull])

theorem readSymrate_reads (s : State) :
    Reads s (fun fs vs rate => fs = s.cfg.symrateField.toList ∧ SymrateRead s.cfg vs rate) (readSymrate s) := by
  unfold readSymrate SymrateRead
  cases s.cfg.symrateField with
  | none => exact reads_ok (by simp)
  | some f => simpa using readField_reads f s

theorem readCnr_reads (sy : System) (full : Bool) (s : State) :
    Reads s (CnrRead s.cfg sy full) (readCnr sy full s) := by
  cases full with
  | false => exact reads_ok (.unlocked sy)
  | true =>
    cases sy with
    | isdbT =>
      refine reads_readField_bind fun snr _ t issued => reads_ok ?_
      have read := CnrRead.isdbT (c := s.cfg) snr
      rw [issued.cfg]
      cases h : (cnrTCalc s.cfg snr).avail <;> rw [h] at read <;> exact read
    | isdbS | isdbS3 =>
      refine (readSymrate_reads s).bind fun _ _ rate _ t toRate ⟨hfs, hrate⟩ =>
        reads_readField_bind fun code _ u toCode => ?_
      rw [toCode.cfg, toRate.cfg, hfs]
      exact reads_ok (by constructor; exact hrate)

theorem readPer_reads (sy : System) (s : State) : Reads s (PerRead s.cfg sy) (readPer sy s) := by
  cases sy with
  | isdbT =>
    refine reads_readField_bind fun e _ t issued => reads_readField_bind fun w _ u _ => ?_
    rw [issued.cfg]
    exact reads_ok (.isdbT e w)
  | isdbS => exact reads_ok .isdbS
  | isdbS3 => exact reads_ok .isdbS3

theorem Issued.rfLevel (h : Issued s es t) (sy : System) (agc : Word) : rfLevel sy agc t = rfLevel sy agc s := by
  obtain ⟨⟨_, _, rfl⟩, -⟩ := h
  rfl

/-- R290's fields in their order. -/
theorem statusReads_eq {full : Bool} {cnrFields perFields : List RegField} {cnrValues perValues : List Word}
    {cnr : Option Word × Option Word} {per : Option Nat} (hcnr : CnrRead c sy full cnrFields cnrValues cnr)
    (hper : PerRead c sy perFields perValues per) :
    statusReads c sy full =
      (c.lockCond.get sy).map Prod.fst ++ c.agcField.get sy :: (cnrFields ++ perFields) := by
  cases hcnr <;> cases hper <;> simp [statusReads]

theorem statusWords_reads (sy : System) (s : State) :
    Reads s (fun fs vs ws => ∃ full, fs = statusReads s.cfg sy full ∧ StatusRead s sy full vs ws)
      (statusWords sy s) := by
  refine (readLock_reads _ s).bind fun _ locks full _ t toLock ⟨hfs, hlen, hfull⟩ => ?_
  refine reads_readField_bind fun agc _ u toAgc => ?_
  have toAgc := toLock.trans toAgc
  refine (readCnr_reads sy full u).bind fun cnrFields cnrValues cnr _ v toCnr hcnr => ?_
  refine (readPer_reads sy v).bind fun perFields perValues per _ w _ hper => ?_
  rw [toAgc.cfg] at hcnr
  rw [(toAgc.trans toCnr).cfg] at hper
  refine reads_ok ⟨full, ?_, ?_⟩ <;> rw [List.append_nil]
  · rw [statusReads_eq hcnr hper, hfs, toLock.cfg]
  · rw [toAgc.rfLevel]
    exact .intro hlen hfull hcnr hper

/-! ### The command -/

/-- Outside Active nothing is read (R294). -/
theorem exec_readStatus_of_not_active (h : s.ds ≠ .active) :
    exec .readStatus s = .next (ended s .ok [0, 0, 0, 0, 0]) := by
  simp only [exec, execReadStatus]
  cases hds : s.ds with
  | active => exact absurd hds h
  | unknown | sleep => rfl

/-- In Active every field is read, or the first failed primitive ends the command. -/
theorem exec_readStatus_of_active (hds : s.ds = .active) (hsys : s.sys = systemValue sy) :
    (∃ es full vs ws t, Issued s es t ∧ FieldsRead s.cfg (statusReads s.cfg sy full) vs es ∧ StatusRead s sy full vs ws ∧
      exec .readStatus s = .next (respond .ok ws t)) ∨
    (∃ pre e t, Issued s (pre ++ [e]) t ∧ (∀ x ∈ pre, x.failed = false) ∧ e.failed = true ∧
      exec .readStatus s = .next (respond .hardwareIoError [0, 0, 0, 0, 0] t)) := by
  have reads := statusWords_reads sy s
  simp only [exec, execReadStatus, hds, hsys, system?_systemValue]
  cases h : statusWords sy s with rw [h] at reads
  | ok ws t =>
    obtain ⟨es, _, vs, issued, read, full, rfl, status⟩ := reads
    exact .inl ⟨es, full, vs, ws, t, issued, read, status, rfl⟩
  | err t =>
    obtain ⟨pre, e, issued, clean, failed⟩ := reads
    exact .inr ⟨pre, e, t, issued, clean, failed, rfl⟩

/-- What an OK response in Active says of the events since. -/
theorem statusRead_of_ok (hds : s.ds = .active) (hsys : s.sys = systemValue sy) (h : exec .readStatus s = .next t)
    (hhist : t.history = s.history ++ es) (hresp : t.resp = some { status := .ok, results := ws }) :
    ∃ full, es.map failedEvent = (statusReads s.cfg sy full).flatMap (fieldReads s.cfg) ∧
      StatusRead s sy full (statusValues s.cfg sy full es) ws := by
  obtain ⟨es', full, vs, ws', u, issued, read, status, e⟩ | ⟨pre, x, u, -, -, -, e⟩ := exec_readStatus_of_active hds hsys
  · cases e.symm.trans h
    cases hresp
    cases List.append_cancel_left (hhist.symm.trans issued.history)
    exact ⟨full, read.events, by rwa [statusValues, read.values]⟩
  · cases e.symm.trans h
    cases hresp

/-- Settles O40, by the two ways READ_STATUS ends in Active. -/
theorem readStatusCompletes : Obligations.ReadStatusCompletes := by
  refine ⟨fun s => exec_readStatus_of_not_active, fun s sy hds hsys => ?_⟩
  obtain ⟨es, _, _, ws, t, issued, read, status, e⟩ | ⟨pre, x, t, issued, clean, failed, e⟩ :=
    exec_readStatus_of_active hds hsys
  · have length : ws.length = 5 := by cases status; rfl
    exact ⟨_, es, ws, .ok, e, issued.respond_sameFields .., issued.rep, issued.history,
      fun y hy b ok hyb => issued.quiet b ok (hyb ▸ hy), rfl, length, .inl rfl, fun _ => read.succeeded, nofun⟩
  · exact ⟨_, pre ++ [x], _, .hardwareIoError, e, issued.respond_sameFields .., issued.rep, issued.history,
      fun y hy b ok hyb => issued.quiet b ok (hyb ▸ hy), rfl, rfl, .inr ⟨rfl, rfl⟩, nofun,
      fun _ => ⟨pre, x, rfl, failed, clean⟩⟩

/-! ### The flags (R291, R292) -/

theorem flagsWord_fields (full rssiV cnrV relV perV : Bool) :
    (flagsWord full rssiV cnrV relV perV).extractLsb' 12 20 = 0 ∧
    (flagsWord full rssiV cnrV relV perV).getLsbD 11 = perV ∧
    (flagsWord full rssiV cnrV relV perV).getLsbD 10 = relV ∧
    (flagsWord full rssiV cnrV relV perV).getLsbD 9 = cnrV ∧
    (flagsWord full rssiV cnrV relV perV).getLsbD 8 = rssiV ∧
    (flagsWord full rssiV cnrV relV perV).extractLsb' 5 3 = 0 ∧
    (flagsWord full rssiV cnrV relV perV).extractLsb' 0 8 = if full then 0x1F else 0x03 := by
  revert full rssiV cnrV relV perV
  decide

/-- The values of the LOCK_COND fields come first, so they decide the lock (R292). -/
theorem eq_expected_iff {l : List (RegField × Word)} {locks rest : List Word} (length : locks.length = l.length) :
    locks = l.map Prod.snd ↔
      ∀ (k : Nat) (f : RegField) (e : Word), l[k]? = some (f, e) → (locks ++ rest)[k]? = some e := by
  constructor
  · rintro rfl k f e hk
    have hlt : k < (l.map Prod.snd).length := by simpa using (List.getElem?_eq_some_iff.mp hk).1
    rw [List.getElem?_append_left hlt, List.getElem?_map, hk]
    rfl
  · refine fun h => List.ext_getElem (by simpa using length) fun k hlocks hl => ?_
    have value := h k l[k].1 l[k].2 (List.getElem?_eq_getElem _)
    rw [List.getElem?_append_left hlocks, List.getElem?_eq_getElem hlocks] at value
    simpa using value

theorem StatusRead.flags {full : Bool} {r1 : Word} (h : StatusRead s sy full vs (r1 :: ws)) :
    r1.extractLsb' 0 8 = if full then 0x1F else 0x03 := by
  cases h
  obtain ⟨-, -, -, -, -, -, flags⟩ := flagsWord_fields full _ _ _ _
  exact flags

theorem StatusRead.full_iff {full : Bool} (h : StatusRead s sy full vs ws) :
    full = true ↔ ∀ (k : Nat) (f : RegField) (e : Word), (s.cfg.lockCond.get sy)[k]? = some (f, e) →
      vs[k]? = some e := by
  obtain ⟨length, lock, -, -⟩ := h
  exact lock.trans (eq_expected_iff length)

/-- Settles O41, by the fields and values of an OK response. -/
theorem readStatusReadsInOrder : Obligations.ReadStatusReadsInOrder := by
  intro s t sy r1 ws es hds hsys h hhist hresp
  obtain ⟨full, events, status⟩ := statusRead_of_ok hds hsys h hhist hresp
  exact ⟨full, status.flags, events, status.full_iff⟩

/-! ### The metrics (R290, R293) -/

/-- A metric whose command computes `v` is available where `v` is a value. -/
theorem metric_of_calc {α : Type} {i : Instr} {v : Calc α} {f : α → List Word} {zeros : List Word}
    (h : exec i s = finish (v.bind fun a => .value (f a)) s) (hzeros : ∀ w ∈ zeros, w = 0) :
    Metric s i v.avail.isSome ((v.avail.map f).getD zeros) := by
  rw [Metric, h]
  cases v with
  | value a => exact .inl ⟨rfl, rfl⟩
  | fault x =>
    refine .inr ⟨rfl, hzeros, fun vs e => ?_⟩
    have resp := congrArg State.resp (Host.Outcome.next.inj e)
    cases resp
  | illFormed d => exact .inr ⟨rfl, hzeros, nofun⟩

theorem metric_of_calc_one {α : Type} {i : Instr} {v : Calc α} {f : α → Word}
    (h : exec i s = finish (v.bind fun a => .value [f a]) s) :
    Metric s i v.avail.isSome [(v.avail.map f).getD 0] := by
  have metric := metric_of_calc (zeros := [0]) h (by simp)
  cases hv : v.avail <;> rw [hv] at metric <;> exact metric

theorem cnrT_metric (snr : Word) (s : State) :
    Metric s (.cnrT snr) (cnrTCalc s.cfg snr).avail.isSome
      [((cnrTCalc s.cfg snr).avail.map (bits32 ·.1)).getD 0, ((cnrTCalc s.cfg snr).avail.map (bits32 ·.2)).getD 0] := by
  have metric := metric_of_calc (zeros := [0, 0]) (exec_cnrT snr s) (by simp)
  cases hv : (cnrTCalc s.cfg snr).avail <;> rw [hv] at metric <;> exact metric

theorem cnrS_metric {sys : BitVec 3} {sel : CnrSelect} (h : SelectionOf s.cfg sys sel) (code rate : Word) :
    Metric s (.cnrS sys code rate) (cnrSCalc s.cfg sel code rate).avail.isSome
      [(cnrSCalc s.cfg sel code rate).avail.getD 0] := by
  simpa using metric_of_calc_one (f := id) (exec_cnrS h code rate)

theorem satelliteCnr_unlocked (s : State) (sys : BitVec 3) (values : List Word) :
    SatelliteCnr s sys false values false 0 := ⟨fun _ => ⟨rfl, rfl⟩, nofun⟩

/-- At full lock the code is the last value read, and the symbol rate the one before it or 0. -/
theorem satelliteCnr_locked {sys : BitVec 3} {sel : CnrSelect} (h : SelectionOf s.cfg sys sel) {rates : List Word}
    {rate : Word} (read : SymrateRead s.cfg rates rate) (front : List Word) (code : Word) :
    SatelliteCnr s sys true (front ++ (rates ++ [code])) (cnrSCalc s.cfg sel code rate).avail.isSome
      ((cnrSCalc s.cfg sel code rate).avail.getD 0) := by
  refine ⟨nofun, fun _ => ⟨code, rate, ?_, ?_, cnrS_metric h code rate⟩⟩
  · simp
  · obtain ⟨present, rfl⟩ | ⟨absent, -, rfl⟩ := read
    · simp [present]
    · simp [absent]

theorem satelliteCnr_of_read {full : Bool} {cnrFields : List RegField} {cnrValues : List Word}
    {cnr : Option Word × Option Word} (satellite : sy ≠ .isdbT)
    (h : CnrRead s.cfg sy full cnrFields cnrValues cnr) (front : List Word) :
    SatelliteCnr s (BitVec.ofNat 3 (systemNumber sy)) full (front ++ cnrValues) cnr.1.isSome (cnr.1.getD 0) ∧
      cnr.2 = none := by
  cases h with
  | unlocked => exact ⟨satelliteCnr_unlocked .., rfl⟩
  | isdbT => exact absurd rfl satellite
  | isdbS read code => exact ⟨satelliteCnr_locked (.inl ⟨rfl, rfl⟩) read front code, rfl⟩
  | isdbS3 read code => exact ⟨satelliteCnr_locked (.inr ⟨rfl, rfl⟩) read front code, rfl⟩

theorem terrestrialCnr_of_read {full : Bool} {cnrFields : List RegField} {cnrValues : List Word}
    {cnr : Option Word × Option Word} (h : CnrRead s.cfg .isdbT full cnrFields cnrValues cnr) :
    (full = false → cnr = (none, none)) ∧ cnr.2.isSome = cnr.1.isSome ∧
    (full = true → ∃ snr, cnrValues = [snr] ∧
      Metric s (.cnrT snr) cnr.1.isSome [cnr.1.getD 0, cnr.2.getD 0]) := by
  cases h with
  | unlocked => exact ⟨fun _ => rfl, rfl, nofun⟩
  | isdbT snr =>
    refine ⟨nofun, ?_, fun _ => ⟨snr, rfl, ?_⟩⟩
    · simp
    · simpa using cnrT_metric snr s

theorem getElem?_last_two (front : List Word) (e w : Word) :
    (front ++ [e, w])[(front ++ [e, w]).length - 2]? = some e ∧
    (front ++ [e, w])[(front ++ [e, w]).length - 1]? = some w := by
  simp

/-- Settles O42, metric by metric. -/
theorem readStatusMetrics : Obligations.ReadStatusMetrics := by
  intro s t sy r1 r2 r3 r4 r5 es hds hsys h hhist hresp
  obtain ⟨full, -, status⟩ := statusRead_of_ok hds hsys h hhist hresp
  have locked : decide (r1.extractLsb' 0 8 = 0x1F) = full := by
    rw [status.flags]
    cases full <;> rfl
  generalize hvalues : statusValues s.cfg sy full es = values at status
  cases status with
  | @intro locks agc _ _ cnrValues perValues cnr per length lock hcnr hper =>
    obtain ⟨high, perV, relV, cnrV, rssiV, middle, -⟩ :=
      flagsWord_fields full (rfLevel sy agc s).isSome cnr.1.isSome cnr.2.isSome per.isSome
    simp only [locked, hvalues, high, middle, perV, relV, cnrV, rssiV, ← length, true_and]
    refine ⟨⟨agc, by simp, ?_⟩, ?_, ?_⟩
    · cases sy with
      | isdbT => exact metric_of_calc_one (exec_rssiT ..)
      | isdbS | isdbS3 => exact metric_of_calc_one (exec_rssiS ..)
    · cases sy with
      | isdbT =>
        obtain ⟨unlocked, same, available⟩ := terrestrialCnr_of_read hcnr
        refine ⟨fun hf => by simp [unlocked hf], same, fun hf => ?_⟩
        obtain ⟨snr, rfl, metric⟩ := available hf
        exact ⟨snr, by simp, metric⟩
      | isdbS | isdbS3 =>
        cases hper
        obtain ⟨satellite, noRel⟩ := satelliteCnr_of_read (by decide) hcnr (locks ++ [agc])
        rw [List.append_assoc] at satellite
        rw [noRel, List.append_nil]
        exact ⟨satellite, rfl, rfl⟩
    · cases sy with
      | isdbT =>
        cases hper with
        | isdbT e w =>
          obtain ⟨he, hw⟩ := getElem?_last_two (locks ++ agc :: cnrValues) e w
          rw [List.append_assoc] at he hw
          exact ⟨e, w, he, hw, metric_of_calc_one (exec_percalc e w s)⟩
      | isdbS | isdbS3 =>
        cases hper
        exact ⟨rfl, rfl⟩

end Sys2Proof.Proofs
end

section
/-! Where an instruction has no meaning (R43, R200, R338), said once for all of them: it goes on, or it is refused for one of
the named reasons. -/

namespace Sys2Proof.Proofs

open Sys2Proof.Machine Sys2Proof.Claims

/-- The outcome is a next state, or a refusal that meets `P`. -/
def RefusesOnly (P : Refusal → Prop) : Host.Outcome State Fault Refusal → Prop
  | .next _ => True
  | .fault _ => False
  | .refused x => P x

/-- What makes `exec` refuse instruction `i` in state `s`. -/
inductive RefusedFor (i : Instr) (s : State) : Refusal → Prop where
  | noSequence (hr : s.run = none) (hi : i.isCommand = false) : RefusedFor i s .noSequence
  | noActiveSystem (hds : s.ds = .active) (hsys : s.sys = .unknown) : RefusedFor i s .noActiveSystem
  | config (d : ConfigDefect) (h : configWf s.cfg = false) : RefusedFor i s (.illFormedConfig d)
  | tsClock {a : Access} (hi : i = .rdsel a) (h : a.mask = 0 ∨ s.cfg.tsclkTable.length ≤ a.mask.toNat / 2 ^ ctz a.mask) :
      RefusedFor i s (.illFormedConfig .tsClockIndex)

/-- The computation meets no point that only an ill-formed configuration reaches. -/
def Meaningful {α : Type} (v : Calc α) : Prop := ∀ d, v ≠ .illFormed d

variable {s : State} {i : Instr} {c : Config}

/-! ### Computations of a well-formed configuration -/

theorem meaningful_value {α : Type} (a : α) : Meaningful (.value a) := nofun

theorem meaningful_fault {α : Type} (x : FaultReason) : Meaningful (.fault x : Calc α) := nofun

theorem Meaningful.bind {α β : Type} {v : Calc α} {f : α → Calc β} (h : Meaningful v) (k : ∀ a, Meaningful (f a)) :
    Meaningful (v.bind f) := by
  cases v with
  | value a => exact k a
  | fault x => exact meaningful_fault x
  | illFormed d => exact absurd rfl (h d)

theorem toI32_meaningful (n : Int) : Meaningful (toI32 n) := by
  unfold toI32
  split
  · exact meaningful_value n
  · exact meaningful_fault _

theorem perCalc_meaningful (e w : Nat) : Meaningful (perCalc e w) := by
  by_cases hw : w = 0
  · subst hw
    exact meaningful_fault _
  · by_cases overflow : PerOverflow e w
    · rw [perCalc_of_overflow hw overflow]
      exact meaningful_fault _
    · rw [perCalc_of_not_overflow hw overflow]
      exact meaningful_value _

theorem tableLookup_meaningful {tab : List CnrEntry} (wf : cnrTableWf tab = true) (q : Word) :
    Meaningful (tableLookup q tab) := by
  cases tab with
  | nil => cases wf
  | cons e rest => exact meaningful_value _

theorem pwlEval_meaningful {model : List PwlSegment} (wf : pwlModelWf model = true) (v : Int) :
    Meaningful (pwlEval v model) := by
  have den : ∀ g ∈ model, g.den ≠ 0 := fun g => den_ne_zero_of_wf wf
  clear wf
  induction model with
  | nil => exact meaningful_fault _
  | cons g rest ih =>
    obtain ⟨hg, hrest⟩ := List.forall_mem_cons.mp den
    rw [pwlEval, if_neg hg]
    split
    · exact toI32_meaningful _
    · exact ih hrest

/-- What R338 asks of the models, the ranges and the divisor of the RF level (R171, R295, R296). -/
theorem rssi_of_wf (wf : configWf c = true) :
    (∀ model ∈ c.pwlModels, pwlModelWf model = true) ∧ (∀ k ∈ c.rssiTRanges, k.wf c.pwlModels.length = true) ∧
    c.rssiSDiv ≠ 0 := by
  simp only [configWf, Config.tablesWf, Bool.and_eq_true, List.all_eq_true, bne_iff_ne] at wf
  tauto

theorem rssiTCalc_meaningful (wf : configWf c = true) (agc f : Word) : Meaningful (rssiTCalc c agc f) := by
  obtain ⟨models, ranges, -⟩ := rssi_of_wf wf
  unfold rssiTCalc
  split
  next => exact meaningful_fault _
  next k hk =>
    refine (toI32_meaningful _).bind fun v => ?_
    have range := ranges k (List.mem_of_find?_eq_some hk)
    simp only [RssiRange.wf, Bool.and_eq_true, decide_eq_true_eq] at range
    rw [List.getElem?_eq_getElem range.2]
    exact (pwlEval_meaningful (models _ (List.getElem_mem range.2)) v).bind fun g => toI32_meaningful _

theorem rssiSCalc_meaningful (wf : configWf c = true) (agc : Word) : Meaningful (rssiSCalc c agc) := by
  obtain ⟨-, -, divisor⟩ := rssi_of_wf wf
  rw [rssiSCalc, if_neg divisor]
  exact toI32_meaningful _

theorem cnrTCalc_meaningful (c : Config) (snr : Word) : Meaningful (cnrTCalc c snr) :=
  (toI32_meaningful _).bind fun _ => meaningful_value _

theorem cnrSCalc_meaningful (wf : configWf c = true) {sys : BitVec 3} {sel : CnrSelect} (h : SelectionOf c sys sel)
    (code rate : Word) : Meaningful (cnrSCalc c sel code rate) := by
  obtain ⟨e, rest, htab, -⟩ := exists_table wf h rate
  rw [cnrSCalc, htab]
  exact meaningful_value _

/-! ### Commands -/

/-- A command of one pure computation is refused for the configuration alone. -/
theorem finish_refusesOnly {α : Type} {v : Calc α} {f : α → List Word} (h : configWf s.cfg = true → Meaningful v) :
    RefusesOnly (RefusedFor i s) (finish (v.bind fun a => .value (f a)) s) := by
  cases v with
  | value | fault => trivial
  | illFormed d => exact .config d (Bool.eq_false_iff.mpr fun wf => h wf d rfl)

theorem execTlookup_refusesOnly (id : Byte) (q : Word) : RefusesOnly (RefusedFor i s) (execTlookup id q s) := by
  unfold execTlookup
  split
  next => trivial
  next tab htab =>
    refine finish_refusesOnly (f := fun v => [v]) fun wf => ?_
    exact tableLookup_meaningful ((cnrTables_of_wf wf).1 tab (List.mem_of_getElem? htab)) q

theorem execPwl_refusesOnly (id : Byte) (v : Word) : RefusesOnly (RefusedFor i s) (execPwl id v s) := by
  unfold execPwl
  split
  next => trivial
  next model hmodel =>
    refine finish_refusesOnly (f := fun n => [bits32 n]) fun wf => ?_
    exact pwlEval_meaningful ((rssi_of_wf wf).1 model (List.mem_of_getElem? hmodel)) v.toInt

theorem execCnrS_refusesOnly (sys : BitVec 3) (code rate : Word) :
    RefusesOnly (RefusedFor i s) (execCnrS sys code rate s) := by
  have selected {sys : BitVec 3} {sel : CnrSelect} (h : SelectionOf s.cfg sys sel) :
      RefusesOnly (RefusedFor i s) (finish ((cnrSCalc s.cfg sel code rate).bind fun v => .value [v]) s) :=
    finish_refusesOnly (f := fun v => [v]) fun wf => cnrSCalc_meaningful wf h code rate
  unfold execCnrS
  split
  · exact selected (.inl ⟨rfl, rfl⟩)
  · exact selected (.inr ⟨rfl, rfl⟩)
  · trivial

theorem system?_eq_none {y : BroadcastSystem} : y.system? = none ↔ y = .unknown := by cases y <;> decide

theorem execSleep_refusesOnly : RefusesOnly (RefusedFor i s) (execSleep s) := by
  unfold execSleep
  split
  next hds =>
    split
    next => trivial
    next hsys => exact .noActiveSystem hds (system?_eq_none.mp hsys)
  all_goals trivial

theorem startTune_refusesOnly (t : System) (bw : BitVec 4) (freq : Word) :
    RefusesOnly (RefusedFor i s) (startTune t bw freq s) := by
  unfold startTune
  split
  next hds =>
    split
    next hsys => exact .noActiveSystem hds (system?_eq_none.mp hsys)
    next => split <;> trivial
  all_goals trivial

theorem execSetFrontend_refusesOnly (sys : BitVec 3) (bw : BitVec 4) (freq sid : Word) :
    RefusesOnly (RefusedFor i s) (execSetFrontend sys bw freq sid s) := by
  unfold execSetFrontend
  split
  · trivial
  · split
    · exact startTune_refusesOnly ..
    · trivial

theorem execReadStatus_refusesOnly : RefusesOnly (RefusedFor i s) (execReadStatus s) := by
  unfold execReadStatus
  split
  next hds =>
    split
    next hsys => exact .noActiveSystem hds (system?_eq_none.mp hsys)
    next => split <;> trivial
  all_goals trivial

/-! ### ROM entries -/

theorem inSequence_of_none (hr : s.run = none) (f : Run → Host.Outcome State Fault Refusal) :
    inSequence s f = .refused .noSequence := by
  rw [inSequence, hr]

theorem inSequence_refusesOnly (hi : i.isCommand = false) {f : Run → Host.Outcome State Fault Refusal}
    (h : ∀ r, RefusesOnly (RefusedFor i s) (f r)) : RefusesOnly (RefusedFor i s) (inSequence s f) := by
  cases hr : s.run with
  | none => rw [inSequence_of_none hr]; exact .noSequence hr hi
  | some r => rw [inSequence_of_run hr]; exact h r

/-- A masked read that names no tuple shows that TSCLK_TABLE does not cover the mask (R201 item 8). -/
theorem tsclkTable_short_of_no_tuple {a : Access} {b : Byte} (h : c.tsclkTable[tsIndex b a.mask]? = none) :
    c.tsclkTable.length ≤ a.mask.toNat / 2 ^ ctz a.mask := by
  by_contra! covered
  have covers : tsTableCovers c (.rdsel a) = true := by
    simpa [tsTableCovers, Nat.shiftRight_eq_div_pow] using covered
  have inside := (tsTableCovers_rdsel_iff a).mp covers b _ rfl
  rw [List.getElem?_eq_none_iff, tsIndex, Nat.shiftRight_eq_div_pow] at h
  exact absurd inside (Nat.not_lt.mpr h)

theorem execRdsel_refusesOnly (a : Access) : RefusesOnly (RefusedFor (.rdsel a) s) (execRdsel a s) := by
  refine inSequence_refusesOnly rfl fun r => ?_
  have bus := readEntry_busOnly a s
  split
  next hmask => exact .tsClock rfl (.inl hmask)
  next =>
    split
    next => trivial
    next b t hread =>
      rw [hread] at bus
      have hcfg : t.cfg = s.cfg := bus.cfg
      split
      next hindex => exact .tsClock rfl (.inr (tsclkTable_short_of_no_tuple (hcfg ▸ hindex)))
      next => trivial

/-! ### All instructions -/

/-- Every instruction goes on, or is refused for a named reason; none stops with a fault. -/
theorem exec_refusesOnly (i : Instr) (s : State) : RefusesOnly (RefusedFor i s) (exec i s) := by
  cases i with
  | log2 _ | log10 _ | sext _ _ | getState | setBits _ _ _ _ | setBankedBits _ _ _ _ _ | init => trivial
  | tlookup id q => exact execTlookup_refusesOnly id q
  | pwl id v => exact execPwl_refusesOnly id v
  | percalc e w => exact finish_refusesOnly fun _ => perCalc_meaningful _ _
  | rssiT agc f => exact finish_refusesOnly fun wf => rssiTCalc_meaningful wf agc f
  | rssiS agc => exact finish_refusesOnly fun wf => rssiSCalc_meaningful wf agc
  | cnrT snr => exact finish_refusesOnly fun _ => cnrTCalc_meaningful s.cfg snr
  | cnrS sys code rate => exact execCnrS_refusesOnly sys code rate
  | sleep => exact execSleep_refusesOnly
  | setFrontend sys bw freq sid => exact execSetFrontend_refusesOnly sys bw freq sid
  | readStatus => exact execReadStatus_refusesOnly
  | endSeq | wr _ _ | delay _ | pollz _ | hook _ _ => exact inSequence_refusesOnly rfl fun _ => trivial
  | wrv a src => exact inSequence_refusesOnly rfl fun r => by split <;> trivial
  | rdsel a => exact execRdsel_refusesOnly a

theorem refusedFor_of_exec {x : Refusal} (h : exec i s = .refused x) : RefusedFor i s x := by
  have only := exec_refusesOnly i s
  rwa [h] at only

theorem exec_of_no_sequence (hr : s.run = none) (hi : i.isCommand = false) : exec i s = .refused .noSequence := by
  cases i with
  | endSeq | wr _ _ | wrv _ _ | delay _ | pollz _ | rdsel _ | hook _ _ => exact inSequence_of_none hr _
  | _ => cases hi

/-- Settles O51: the refusing branch of each command, and for "nowhere else" what every instruction is refused for. -/
theorem refusalsByName : Obligations.RefusalsByName := by
  refine ⟨fun i s => exec_of_no_sequence, fun s hds hsys => ⟨?_, ?_, fun sys bw freq sid supported => ?_⟩,
    fun s r a hr hmask => ?_, fun i s x h => ?_⟩
  · simp only [exec, execSleep, hds, hsys, BroadcastSystem.system?]
  · simp only [exec, execReadStatus, hds, hsys, BroadcastSystem.system?]
  · obtain ⟨t, ht⟩ := target_of_supported supported
    rw [exec_setFrontend_of_supported supported ht]
    simp only [startTune, hds, hsys, BroadcastSystem.system?]
  · exact (inSequence_of_run hr _).trans (if_pos hmask)
  · cases refusedFor_of_exec h with
    | noSequence hr hi => exact .inl ⟨rfl, hr, hi⟩
    | noActiveSystem hds hsys => exact .inr (.inl ⟨rfl, hds, hsys⟩)
    | config d hcfg => exact .inr (.inr ⟨d, rfl, .inl hcfg⟩)
    | tsClock hi hindex => exact .inr (.inr ⟨_, rfl, .inr ⟨_, hi, hindex⟩⟩)

end Sys2Proof.Proofs
end

section
/-! Attach gives a good state (R338, R360), and in a good state no step is refused: the sequencer always finds an entry that may
run (R31, R201). -/

namespace Sys2Proof.Proofs

open Sys2Proof.Machine Sys2Proof.Claims

variable {s t : State} {r : Run} {c : Config} {i : Instr}

/-! ### Attach (R360, R362) -/

theorem attach_of_wf (h : configWf c = true) : attach c = .next (State.attach c) := if_pos h

theorem entryExists_of_no_run (h : s.run = none) : EntryExists s := fun r hr => by rw [h] at hr; cases hr

theorem attach_goodState (h : configWf c = true) : GoodState (State.attach c) where
  config := h
  accepted := by simp [h]
  block := attach_blockInv c
  entry := entryExists_of_no_run rfl

/-- A configuration that R338 refuses gives no shared context. -/
theorem create_of_refused (h : attach c = .refused (.illFormedConfig .refusedAtAttach)) :
    SharedBus.create c = .refused (.illFormedConfig .refusedAtAttach) := by
  unfold SharedBus.create
  rw [h]

/-- The state that attach would have made of a refused configuration takes no step (R338). -/
theorem step_attach_of_not_wf (h : configWf c = false) :
    step (State.attach c) = .refused (.illFormedConfig .refusedAtAttach) := by
  simp only [step, State.attach_faultReason, State.attach_refused, h, Bool.not_false]

/-- Settles O53: `configWf` decides attach, the new context, and whether the state has a step. -/
theorem attachGivesGoodState : Obligations.AttachGivesGoodState := by
  intro c
  refine ⟨fun wf => ⟨attach_of_wf wf, attach_goodState wf⟩, fun ill => ?_⟩
  have refused := attach_of_not_wf (Bool.eq_false_iff.mp ill)
  exact ⟨refused, create_of_refused refused, step_attach_of_not_wf ill⟩

/-! ### The entries of a well-formed SEQ_ROM (R201) -/

theorem sequenceWf_of_configWf (wf : configWf c = true) (id : SeqId) :
    sequenceWf c id (c.seqRom.entries id) = true := by
  have listed : id ∈ SeqId.all := by cases id <;> decide
  rw [configWf, seqRomWf, Bool.and_eq_true, List.all_eq_true] at wf
  exact wf.2 id listed

theorem entries_length_pos (wf : configWf c = true) (id : SeqId) : 0 < (c.seqRom.entries id).length := by
  refine List.length_pos_of_ne_nil fun empty => ?_
  have seq := sequenceWf_of_configWf wf id
  rw [empty] at seq
  cases seq

/-- An entry of a well-formed sequence decodes to an instruction that may stand there, and one that is not END has another
after it. -/
theorem exists_entry_of_sequenceWf {id : SeqId} {es : List RomWord} {k : Nat} {e : RomWord}
    (wf : sequenceWf c id es = true) (he : es[k]? = some e) :
    ∃ i, decodeEntry e = .ok i ∧ EntryAllowed c id i ∧ (i ≠ .endSeq → k + 1 < es.length) := by
  induction es generalizing k with
  | nil => cases he
  | cons e' rest ih =>
    unfold sequenceWf at wf
    split at wf
    next => cases wf
    next i hd =>
      obtain ⟨here, tail⟩ := (Bool.and_eq_true _ _).mp wf
      have allowed := (allowed_iff (isCommand_of_decodeEntry hd)).mp here
      cases k with
      | zero =>
        cases he
        refine ⟨i, hd, allowed, fun hi => ?_⟩
        rw [if_neg hi] at tail
        cases rest with
        | nil => cases tail
        | cons => simp
      | succ k =>
        rw [List.getElem?_cons_succ] at he
        split at tail
        next => rw [List.isEmpty_iff.mp tail] at he; cases he
        next =>
          obtain ⟨j, hj, hallowed, hnext⟩ := ih tail he
          exact ⟨j, hj, hallowed, fun hi => Nat.succ_lt_succ (hnext hi)⟩

/-- The running sequence's length. -/
def seqLength (c : Config) (p : Phase) : Nat := (c.seqRom.entries (p.sequence c)).length

theorem seqLength_pos (wf : configWf c = true) (p : Phase) : 0 < seqLength c p := entries_length_pos wf _

/-- What the sequencer finds in a good state (R31, R200, R201). -/
theorem fetch_of_goodState (good : GoodState s) (hr : s.run = some r) :
    ∃ i, fetch s = .instr i s ∧ EntryAllowed s.cfg (r.phase.sequence s.cfg) i ∧
      (i ≠ .endSeq → r.index + 1 < seqLength s.cfg r.phase) := by
  have he := List.getElem?_eq_getElem (good.entry r hr)
  obtain ⟨i, hd, allowed, next⟩ := exists_entry_of_sequenceWf (sequenceWf_of_configWf good.config _) he
  exact ⟨i, fetch_of_run hr he hd, allowed, next⟩

/-! ### No refusal -/

/-- Where R43 is met, a well-formed configuration's instruction is not refused: an entry has its sequence running and may stand
in one (R200, R201). -/
theorem exec_next_of_wf (wf : configWf s.cfg = true) (active : ActiveConsistent s)
    (entry : i.isCommand = false → s.run.isSome = true ∧ ∃ id, EntryAllowed s.cfg id i) : ∃ t, exec i s = .next t := by
  have only := exec_refusesOnly i s
  cases h : exec i s with
  | next t => exact ⟨t, rfl⟩
  | fault x => rw [h] at only; exact only.elim
  | refused x =>
    cases refusedFor_of_exec h with
    | noSequence hr hi => simpa [hr] using (entry hi).1
    | noActiveSystem hds hsys =>
      obtain ⟨sy, hsy, -⟩ := active hds
      rw [hsys] at hsy
      cases sy <;> cases hsy
    | config d ill => rw [wf] at ill; cases ill
    | @tsClock a hi hindex =>
      subst hi
      obtain ⟨-, id, -, -, -, rdsel⟩ := entry rfl
      obtain ⟨-, -, -, hmask, covered⟩ := rdsel a rfl
      have inside := covered a.mask _ rfl
      rw [BitVec.and_self] at inside
      exact absurd inside (Nat.not_lt.mpr (hindex.resolve_left hmask))

/-- A block with a recorded fault takes no step (R336 item 3). -/
theorem step_of_faulted {x : FaultReason} (h : s.faultReason = some x) : step s = .fault (.stuck x) := by
  simp only [step, h]

theorem goodState_safeStep (good : GoodState s) : SafeStep s := by
  cases hf : s.faultReason with
  | some x => exact .inr ⟨x, hf, step_of_faulted hf⟩
  | none =>
    left
    cases hr : s.run with
    | some r =>
      obtain ⟨i, hfetch, allowed, -⟩ := fetch_of_goodState good hr
      rw [step_of_instr hf good.accepted hfetch]
      exact exec_next_of_wf good.config good.block.active fun _ => ⟨by simp [hr], _, allowed⟩
    | none =>
      by_cases hl : s.lock = .other
      · exact ⟨s, by simp only [step, hf, good.accepted, fetch, hr, hl]⟩
      · have ready : Ready s := ⟨hf, good.accepted, hr, hl⟩
        cases hp : s.port with
        | nil => exact ⟨s, by simp only [step, hf, good.accepted, fetch_of_ready ready, fetchCommand, hp]⟩
        | cons x rest =>
          cases hd : decodeCommand x.w0 x.ops with
          | error err => exact ⟨_, step_of_undecodable ready hp hd⟩
          | ok i =>
            have command := decodeCommand_isCommand hd
            rw [step_of_decodes ready hp hd]
            exact exec_next_of_wf good.config good.block.active (by simp [command])

end Sys2Proof.Proofs
end

section
/-! Every step of a good state leaves a good state (R31, R338): the sequences that a command has still to run, and the sequencer's
place in the next state. -/

namespace Sys2Proof.Proofs

open Sys2Proof.Machine Sys2Proof.Claims

variable {s t : State} {r : Run} {c : Config}

/-! ### The sequences still to run -/

/-- The tuner's part of a tune at its longest: front-end reset, sub-mode load, frequency (R221, R224). -/
def tunerSequences (c : Config) (req : TuneReq) : List SeqId :=
  [.tunerReset, loadSequence (subModeOf req.target), freqSequence c req.target req.freq]

/-- The sequences that follow the one of a phase, where the command takes the longest way (R225, R255, R221, R224). -/
def followingSequences (c : Config) : Phase → List SeqId
  | .initDemod => [.tunerColdboot]
  | .initTuner => []
  | .sleep _ => []
  | .tuneSleep _ req => s2aSequence req.target :: tunerSequences c req
  | .tuneS2A req => tunerSequences c req
  | .tuneSame req => tunerSequences c req
  | .tuneReset req => [loadSequence (subModeOf req.target), freqSequence c req.target req.freq]
  | .tuneLoad req => [freqSequence c req.target req.freq]
  | .tuneFreq _ => []

/-- If the command still runs in `t`, it stands at the first entry of a sequence that follows phase `p`, with only the ones
after that one still to follow. -/
def EntersNext (c : Config) (p : Phase) (t : State) : Prop :=
  ∀ r, t.run = some r → r.index = 0 ∧ r.phase.sequence c :: followingSequences c r.phase <:+ followingSequences c p

theorem entersNext_of_ended {p : Phase} (h : t.run = none) : EntersNext c p t := fun r hr => by rw [h] at hr; cases hr

theorem gotoPhase_entersNext {p q : Phase} (h : q.sequence c :: followingSequences c q <:+ followingSequences c p) :
    EntersNext c p (gotoPhase r q s) := by
  intro _ hr
  cases hr
  exact ⟨rfl, h⟩

/-- TunerTune may leave out the front-end reset and the sub-mode load (R221). -/
theorem enterTuner_entersNext {p : Phase} {req : TuneReq}
    (h : followingSequences c p = tunerSequences c req) : EntersNext c p (enterTuner r req s) := by
  obtain ⟨u, -, e⟩ | ⟨u, -, -, ⟨-, e⟩ | ⟨-, e⟩⟩ := enterTuner_cases r req s <;> rw [e]
  · exact entersNext_of_ended rfl
  · exact gotoPhase_entersNext (h ▸ List.suffix_rfl)
  · exact gotoPhase_entersNext (h ▸ ⟨[.tunerReset, loadSequence (subModeOf req.target)], rfl⟩)

theorem afterSequence_entersNext (c : Config) (r : Run) (s : State) : EntersNext c r.phase (afterSequence r s) := by
  unfold afterSequence
  cases r.phase with
  | initDemod =>
    obtain ⟨u, -, e⟩ | ⟨u, -, -, e⟩ := enterColdboot_cases r s <;> simp only [e]
    · exact entersNext_of_ended rfl
    · exact gotoPhase_entersNext List.suffix_rfl
  | initTuner =>
    obtain ⟨u, -, e⟩ | ⟨u, -, -, e⟩ := finishInit_cases s <;> simp only [e] <;> exact entersNext_of_ended rfl
  | sleep => exact entersNext_of_ended rfl
  | tuneS2A | tuneSame => exact enterTuner_entersNext rfl
  | tuneSleep | tuneReset | tuneLoad => exact gotoPhase_entersNext List.suffix_rfl
  | tuneFreq req => exact entersNext_of_ended (finishTune_run req s)

/-! ### The sequencer's place after a step -/

theorem EntersNext.entryExists {p : Phase} (h : EntersNext c p t) (wf : configWf t.cfg = true) : EntryExists t := by
  intro r hr
  rw [(h r hr).1]
  exact seqLength_pos wf r.phase

/-- An entry that is not END goes on to the next one, which is there (R201 item 1); any other end of the step leaves no
sequence running or the first entry of one. -/
theorem entryEffect_entryExists (e : EntryEffect s r t) (wf : configWf t.cfg = true)
    (hcfg : t.cfg = s.cfg) (next : r.index + 1 < seqLength s.cfg r.phase) : EntryExists t := by
  cases e with
  | fails | faults => exact entryExists_of_no_run rfl
  | advances =>
    intro _ h
    cases h
    rw [hcfg]
    exact next
  | endsSequence => exact (afterSequence_entersNext s.cfg r s).entryExists wf

/-- A command from the port begins its first sequence or runs none. -/
theorem effect_entryExists_of_no_run (hr : s.run = none) (e : Effect s t) (wf : configWf t.cfg = true) : EntryExists t := by
  cases e with
  | responds | faults | sleeps => exact entryExists_of_no_run rfl
  | begins =>
    intro _ h
    cases h
    exact seqLength_pos wf _
  | advances hr' | endsSequence hr' => rw [hr] at hr'; cases hr'

theorem step_entryExists (good : GoodState s) (h : step s = .next t) : EntryExists t := by
  obtain ⟨hcfg, -, -, -, hf⟩ := stepOnlyExtendsHistory s t h
  have wf : configWf t.cfg = true := hcfg ▸ good.config
  cases hr : s.run with
  | some r =>
    obtain ⟨i, hfetch, -, next⟩ := fetch_of_goodState good hr
    by_cases hi : i = .endSeq
    · rw [step_of_instr hf good.accepted hfetch, hi, exec_endSeq hr] at h
      cases h
      exact (afterSequence_entersNext s.cfg r s).entryExists wf
    · exact entryEffect_entryExists (step_entryEffect hr h) wf hcfg (next hi)
  | none =>
    obtain rfl | ⟨r, hr', -, -⟩ | ⟨rest, -, -, e⟩ := step_effect h
    · exact entryExists_of_no_run hr
    · rw [hr] at hr'
      cases hr'
    · exact effect_entryExists_of_no_run (s := takeCommand rest s) hr e wf

theorem step_keeps_goodState (good : GoodState s) (h : step s = .next t) : GoodState t := by
  obtain ⟨hcfg, hrefused, -, -, -⟩ := stepOnlyExtendsHistory s t h
  exact ⟨hcfg ▸ good.config, hrefused.trans good.accepted, stepKeepsBlockInvariant s t good.block h,
    step_entryExists good h⟩

/-- Settles O52: what a step fetches in a good state is not refused, and the invariant of the block and the sequencer's place
are kept. -/
theorem goodStatesStepSafely : Obligations.GoodStatesStepSafely :=
  fun _ good => ⟨goodState_safeStep good, fun _ h => step_keeps_goodState good h⟩

end Sys2Proof.Proofs
end

section
/-! A running command ends (R345): each step uses up an entry of the sequences it has still to run, and it runs each sequence of
SEQ_ROM at most once. -/

namespace Sys2Proof.Proofs

open Sys2Proof.Machine Sys2Proof.Claims

variable {s t : State} {r : Run} {c : Config}

/-- The number of entries in these sequences. -/
def entryCount (c : Config) (ids : List SeqId) : Nat := (ids.map fun id => (c.seqRom.entries id).length).sum

/-- How many entries a running command has left at most: those of its sequence from its place on, and those of the sequences
that follow. -/
def entriesLeft (c : Config) (r : Run) : Nat :=
  (seqLength c r.phase - r.index) + entryCount c (followingSequences c r.phase)

/-! ### Counting entries -/

theorem entryCount_cons (c : Config) (p : Phase) (ids : List SeqId) :
    entryCount c (p.sequence c :: ids) = seqLength c p + entryCount c ids := by
  simp [entryCount, seqLength]

theorem entryCount_mono_of_sublist {ids ids' : List SeqId} (h : ids.Sublist ids') : entryCount c ids ≤ entryCount c ids' :=
  (h.map _).sum_le_sum fun _ _ => Nat.zero_le _

/-! ### No command comes back to a sequence -/

theorem freqSequence_cases (c : Config) (sy : System) (freq : Word) :
    freqSequence c sy freq = .tunerFreqTerr ∨ freqSequence c sy freq = .tunerFreqSatLo ∨
    freqSequence c sy freq = .tunerFreqSatHi := by
  cases sy with
  | isdbT => exact .inl rfl
  | isdbS => exact .inr (.inl rfl)
  | isdbS3 => simp only [freqSequence]; split <;> simp

theorem loadSequence_cases (m : SubMode) : loadSequence m = .tunerLoadTerr ∨ loadSequence m = .tunerLoadSat := by
  cases m <;> simp [loadSequence]

theorem tunerSequences_nodup (c : Config) (req : TuneReq) :
    (tunerSequences c req).Nodup ∧ ∀ id ∈ tunerSequences c req, id.target = .tuner := by
  unfold tunerSequences
  obtain load | load := loadSequence_cases (subModeOf req.target) <;>
    obtain freq | freq | freq := freqSequence_cases c req.target req.freq <;> rw [load, freq] <;> decide

/-- A demodulator sequence is none of the tuner's. -/
theorem cons_tunerSequences_nodup {id : SeqId} (h : id.target = .demod) (c : Config) (req : TuneReq) :
    (id :: tunerSequences c req).Nodup := by
  obtain ⟨nodup, tuner⟩ := tunerSequences_nodup c req
  refine nodup.cons fun mem => ?_
  rw [tuner id mem] at h
  cases h

theorem s2aSequence_target (sy : System) : (s2aSequence sy).target = .demod := by cases sy <;> rfl

theorem sameSequence_target (sy : System) : (sameSequence sy).target = .demod := by cases sy <;> rfl

theorem a2sSequence_target (sy : System) : (a2sSequence sy).target = .demod := by cases sy <;> rfl

theorem a2sSequence_ne_s2aSequence (old sy : System) : a2sSequence old ≠ s2aSequence sy := by
  cases old <;> cases sy <;> decide

theorem sequences_nodup (c : Config) (p : Phase) : (p.sequence c :: followingSequences c p).Nodup := by
  cases p with
  | initDemod => exact (by decide : [SeqId.demodInit, .tunerColdboot].Nodup)
  | initTuner | sleep _ | tuneFreq _ => exact List.nodup_singleton _
  | tuneSleep old req =>
    have down := cons_tunerSequences_nodup (a2sSequence_target old) c req
    have up := cons_tunerSequences_nodup (s2aSequence_target req.target) c req
    refine up.cons fun mem => ?_
    obtain same | mem := List.mem_cons.mp mem
    · exact a2sSequence_ne_s2aSequence old req.target same
    · exact (List.nodup_cons.mp down).1 mem
  | tuneS2A req => exact cons_tunerSequences_nodup (s2aSequence_target req.target) c req
  | tuneSame req => exact cons_tunerSequences_nodup (sameSequence_target req.target) c req
  | tuneReset req => exact (tunerSequences_nodup c req).1
  | tuneLoad req => exact (tunerSequences_nodup c req).1.of_cons

theorem entriesLeft_le (c : Config) (r : Run) : entriesLeft c r ≤ entryCount c SeqId.all := by
  have all : r.phase.sequence c :: followingSequences c r.phase ⊆ SeqId.all := fun id _ => by cases id <;> decide
  obtain ⟨ids, perm, sublist⟩ := (sequences_nodup c r.phase).subperm all
  calc entriesLeft c r
      ≤ entryCount c (r.phase.sequence c :: followingSequences c r.phase) := by
        rw [entryCount_cons, entriesLeft]
        omega
    _ = entryCount c ids := (perm.map _).sum_eq.symm
    _ ≤ entryCount c SeqId.all := entryCount_mono_of_sublist sublist

/-! ### One step -/

/-- If the command still runs after a step, it has fewer entries left. -/
theorem entryEffect_entriesLeft (hindex : r.index < seqLength s.cfg r.phase) (e : EntryEffect s r t) {r' : Run}
    (hr' : t.run = some r') : entriesLeft s.cfg r' < entriesLeft s.cfg r := by
  cases e with
  | fails | faults => cases hr'
  | advances =>
    cases hr'
    simp only [entriesLeft]
    omega
  | endsSequence =>
    obtain ⟨first, suffix⟩ := afterSequence_entersNext s.cfg r s r' hr'
    have fewer := entryCount_mono_of_sublist (c := s.cfg) suffix.sublist
    rw [entryCount_cons] at fewer
    simp only [entriesLeft, first]
    omega

/-- A step that ends the running command has responded or recorded a model fault. -/
theorem ended_of_step (hr : s.run = some r) (h : step s = .next t) (hend : t.run = none) :
    t.resp.isSome = true ∨ t.faultReason.isSome = true := by
  obtain rfl | ⟨-, -, -, e⟩ | ⟨-, hr', -, -⟩ := step_effect h
  · rw [hr] at hend
    cases hend
  · obtain ⟨running, -, -⟩ | ⟨-, -, -, hresp⟩ | ⟨-, -, hfault, -, -⟩ := e.frame.ends
    · simp [hend] at running
    · exact .inl hresp
    · exact .inr hfault
  · rw [hr] at hr'
    cases hr'

/-- A good state in which a command runs has a step: no fault has been recorded, or the command would have ended. -/
theorem exists_step_of_running (good : GoodState s) (hr : s.run = some r) : ∃ t, step s = .next t := by
  obtain next | ⟨x, hx, -⟩ := goodState_safeStep good
  · exact next
  · obtain ⟨ended, -⟩ := good.block.faulted (by simp [hx])
    rw [hr] at ended
    cases ended

/-! ### The whole command -/

theorem run_succ_of_step {k : Nat} (h : step s = .next t) : Sys2Proof.core.run (k + 1) s = Sys2Proof.core.run k t := by
  have hcore : Sys2Proof.core.step s = .next t := h
  simp only [Host.Core.run, hcore]

theorem ends_within (n : Nat) (good : GoodState s) (hr : s.run = some r) (left : entriesLeft s.cfg r ≤ n) :
    ∃ k t, k ≤ n ∧ Sys2Proof.core.run k s = .next t ∧ t.run = none ∧
      (t.resp.isSome = true ∨ t.faultReason.isSome = true) := by
  induction n generalizing s r with
  | zero =>
    have here : r.index < seqLength s.cfg r.phase := good.entry r hr
    unfold entriesLeft at left
    omega
  | succ n ih =>
    obtain ⟨u, hu⟩ := exists_step_of_running good hr
    cases hrun : u.run with
    | none => exact ⟨1, u, by omega, run_succ_of_step hu, hrun, ended_of_step hr hu hrun⟩
    | some r' =>
      have goodU := step_keeps_goodState good hu
      have fewer := entryEffect_entriesLeft (good.entry r hr) (step_entryEffect hr hu) hrun
      have hcfg : u.cfg = s.cfg := (stepOnlyExtendsHistory s u hu).1
      obtain ⟨k, t, hk, hrunk, ends⟩ := ih goodU hrun (by rw [hcfg]; omega)
      exact ⟨k + 1, t, by omega, (run_succ_of_step hu).trans hrunk, ends⟩

/-- Settles O56, by induction on the entries that the command has left. -/
theorem runningCommandEnds : Obligations.RunningCommandEnds :=
  fun s r good hr => ends_within _ good hr (entriesLeft_le s.cfg r)

end Sys2Proof.Proofs
end

section
/-! The model fault (R336, R337): which instruction raises which reason, and what a fault leaves. -/

namespace Sys2Proof.Proofs

open Sys2Proof.Machine Sys2Proof.Claims

/-- What makes instruction `i` raise a reason: its computation faults, or a WRV finds its source unset. -/
inductive Raises (s : State) : Instr → FaultReason → Prop where
  | pwl {id : Byte} {v : Word} {model : List PwlSegment} {x : FaultReason} (hmodel : s.cfg.pwlModels[id.toNat]? = some model)
      (h : pwlEval v.toInt model = .fault x) : Raises s (.pwl id v) x
  | percalc {e w : Word} {x : FaultReason} (h : perCalc e.toNat w.toNat = .fault x) : Raises s (.percalc e w) x
  | rssiT {agc f : Word} {x : FaultReason} (h : rssiTCalc s.cfg agc f = .fault x) : Raises s (.rssiT agc f) x
  | rssiS {agc : Word} {x : FaultReason} (h : rssiSCalc s.cfg agc = .fault x) : Raises s (.rssiS agc) x
  | cnrT {snr : Word} {x : FaultReason} (h : cnrTCalc s.cfg snr = .fault x) : Raises s (.cnrT snr) x
  | wrv {a : Access} {src : Source} {r : Run} (hr : s.run = some r) (h : sourceByte s.cfg r src = none) :
      Raises s (.wrv a src) .wrvSourceUnset

/-- The instruction keeps the fault record, or ends in a model fault whose reason it raises. -/
def KeepsOrRaises (s : State) (i : Instr) (t : State) : Prop :=
  t.faultReason = s.faultReason ∨ ∃ x, Raises s i x ∧ t = raiseFault x s

variable {s t : State} {i : Instr} {r : Run} {c : Config} {x : FaultReason}

/-! ### Commands -/

theorem finish_keepsOrRaises {α : Type} {v : Calc α} {f : α → List Word} (raises : ∀ x, v = .fault x → Raises s i x)
    (h : finish (v.bind fun a => .value (f a)) s = .next t) : KeepsOrRaises s i t := by
  cases v with
  | value a => cases h; exact .inl rfl
  | fault x => cases h; exact .inr ⟨x, raises x rfl, rfl⟩
  | illFormed d => cases h

theorem tableLookup_ne_fault (q : Word) (tab : List CnrEntry) : tableLookup q tab ≠ .fault x := by
  cases tab <;> exact nofun

theorem cnrSCalc_ne_fault (sel : CnrSelect) (code rate : Word) : cnrSCalc c sel code rate ≠ .fault x := by
  unfold cnrSCalc
  split
  · exact nofun
  · exact tableLookup_ne_fault _ _

theorem execTlookup_keepsOrRaises {id : Byte} {q : Word} (h : execTlookup id q s = .next t) : KeepsOrRaises s i t := by
  unfold execTlookup at h
  split at h
  · cases h; exact .inl rfl
  · exact finish_keepsOrRaises (f := fun v => [v]) (fun _ fault => absurd fault (tableLookup_ne_fault _ _)) h

theorem execPwl_keepsOrRaises {id : Byte} {v : Word} (h : execPwl id v s = .next t) :
    KeepsOrRaises s (.pwl id v) t := by
  unfold execPwl at h
  split at h
  next => cases h; exact .inl rfl
  next model hmodel => exact finish_keepsOrRaises (f := fun n => [bits32 n]) (fun _ => .pwl hmodel) h

theorem execCnrS_keepsOrRaises {sys : BitVec 3} {code rate : Word} (h : execCnrS sys code rate s = .next t) :
    KeepsOrRaises s i t := by
  unfold execCnrS at h
  split at h
  · exact finish_keepsOrRaises (f := fun v => [v]) (fun _ fault => absurd fault (cnrSCalc_ne_fault _ _ _)) h
  · exact finish_keepsOrRaises (f := fun v => [v]) (fun _ fault => absurd fault (cnrSCalc_ne_fault _ _ _)) h
  · cases h; exact .inl rfl

theorem finishBits_faultReason {r : Res Unit} (h : BusOnly s r.state) : (finishBits r).faultReason = s.faultReason := by
  obtain ⟨-, e⟩ | ⟨-, e⟩ := finishBits_cases r <;> rw [e] <;> exact h.faultReason

theorem execSleep_faultReason (h : execSleep s = .next t) : t.faultReason = s.faultReason := by
  unfold execSleep at h
  split at h
  next => split at h <;> cases h; rfl
  all_goals cases h; rfl

theorem startTune_faultReason {sy : System} {bw : BitVec 4} {freq : Word} (h : startTune sy bw freq s = .next t) :
    t.faultReason = s.faultReason := by
  unfold startTune at h
  split at h
  next =>
    split at h
    next => cases h
    next => split at h <;> cases h <;> rfl
  all_goals cases h; rfl

theorem execSetFrontend_faultReason {sys : BitVec 3} {bw : BitVec 4} {freq sid : Word}
    (h : execSetFrontend sys bw freq sid s = .next t) : t.faultReason = s.faultReason := by
  unfold execSetFrontend at h
  split at h
  next => cases h; rfl
  next =>
    split at h
    next => exact startTune_faultReason h
    next => cases h; rfl

theorem execReadStatus_faultReason (h : execReadStatus s = .next t) : t.faultReason = s.faultReason := by
  unfold execReadStatus at h
  split at h
  next =>
    split at h
    next => cases h
    next sy _ =>
      have bus := statusWords_busOnly sy s
      split at h <;> rename_i hw <;> rw [hw] at bus <;> cases h <;> exact bus.faultReason
  all_goals cases h; rfl

/-! ### ROM entries -/

theorem enterTuner_faultReason (r : Run) (req : TuneReq) (s : State) :
    (enterTuner r req s).faultReason = s.faultReason := by
  obtain ⟨u, bus, e⟩ | ⟨u, bus, -, ⟨-, e⟩ | ⟨-, e⟩⟩ := enterTuner_cases r req s <;> rw [e] <;> exact bus.faultReason

theorem afterSequence_faultReason (r : Run) (s : State) : (afterSequence r s).faultReason = s.faultReason := by
  unfold afterSequence
  cases r.phase with
  | initDemod =>
    obtain ⟨u, bus, e⟩ | ⟨u, bus, -, e⟩ := enterColdboot_cases r s <;> simp only [e] <;> exact bus.faultReason
  | initTuner =>
    obtain ⟨u, bus, e⟩ | ⟨u, bus, -, e⟩ := finishInit_cases s <;> simp only [e] <;> exact bus.faultReason
  | sleep | tuneSleep | tuneReset | tuneLoad => rfl
  | tuneS2A req | tuneSame req => exact enterTuner_faultReason r req s
  | tuneFreq req =>
    obtain ⟨u, bus, e⟩ | ⟨u, bus, -, e⟩ := finishTune_cases req s <;> simp only [e]
    · exact bus.faultReason
    · split <;> exact bus.faultReason

theorem failSequence_faultReason (st : Status) (r : Run) (s : State) :
    (failSequence st r s).faultReason = s.faultReason := by
  obtain ⟨u, bus, e⟩ := failSequence_cases st r s
  rw [e]
  exact bus.faultReason

theorem afterAccess_faultReason {res : Res Unit} (h : BusOnly s res.state) :
    (afterAccess r res).faultReason = s.faultReason := by
  cases res with
  | ok _ u => exact h.faultReason
  | err u => exact (failSequence_faultReason ..).trans h.faultReason

theorem afterPoll_faultReason {a : BusAddr} {m : Byte} {res : Res Byte} (h : AccessOnly a s res.state) :
    (afterPoll m r res).faultReason = s.faultReason := by
  obtain ⟨u, hu, e⟩ | ⟨u, _, hu, -, e⟩ := afterPoll_cases a m r h <;> rw [e]
  · exact hu.busOnly.faultReason
  · exact hu.faultReason

theorem execWrv_keepsOrRaises {a : Access} {src : Source} (h : execWrv a src s = .next t) :
    KeepsOrRaises s (.wrv a src) t := by
  obtain ⟨r, hr, e⟩ := inSequence_eq_next h
  split at e
  next unset => cases e; exact .inr ⟨_, .wrv hr unset, rfl⟩
  next => cases e; exact .inl (afterAccess_faultReason (accessOp_busOnly ..))

theorem execRdsel_faultReason {a : Access} (h : execRdsel a s = .next t) : t.faultReason = s.faultReason := by
  obtain ⟨r, -, e⟩ := inSequence_eq_next h
  have bus := readEntry_busOnly a s
  split at e
  · cases e
  · split at e <;> rename_i hread <;> rw [hread] at bus
    · cases e
      exact (failSequence_faultReason ..).trans bus.faultReason
    · split at e <;> cases e
      exact bus.faultReason

/-! ### All instructions -/

theorem exec_keepsOrRaises (h : exec i s = .next t) : KeepsOrRaises s i t := by
  cases i with
  | log2 _ | log10 _ | sext _ _ | getState | init => cases h; exact .inl rfl
  | tlookup id q => exact execTlookup_keepsOrRaises h
  | pwl id v => exact execPwl_keepsOrRaises h
  | percalc e w => exact finish_keepsOrRaises (fun _ => .percalc) h
  | rssiT agc f => exact finish_keepsOrRaises (fun _ => .rssiT) h
  | rssiS agc => exact finish_keepsOrRaises (fun _ => .rssiS) h
  | cnrT snr => exact finish_keepsOrRaises (fun _ => .cnrT) h
  | cnrS sys code rate => exact execCnrS_keepsOrRaises h
  | setBits tgt _ _ _ =>
    cases h; exact .inl (finishBits_faultReason (onTarget_busOnly tgt (fun _ => setBitsOp_busOnly ..) s))
  | setBankedBits tgt _ _ _ _ =>
    cases h; exact .inl (finishBits_faultReason (onTarget_busOnly tgt (fun _ => setBankedBitsOp_busOnly ..) s))
  | sleep => exact .inl (execSleep_faultReason h)
  | setFrontend _ _ _ _ => exact .inl (execSetFrontend_faultReason h)
  | readStatus => exact .inl (execReadStatus_faultReason h)
  | endSeq => obtain ⟨r, -, e⟩ := inSequence_eq_next h; cases e; exact .inl (afterSequence_faultReason r s)
  | wr a val =>
    obtain ⟨r, -, e⟩ := inSequence_eq_next h; cases e; exact .inl (afterAccess_faultReason (accessOp_busOnly ..))
  | wrv a src => exact execWrv_keepsOrRaises h
  | delay _ | hook _ _ => obtain ⟨r, -, e⟩ := inSequence_eq_next h; cases e; exact .inl rfl
  | pollz a =>
    obtain ⟨r, -, e⟩ := inSequence_eq_next h; cases e; exact .inl (afterPoll_faultReason (readEntry_accessOnly ..))
  | rdsel a => exact .inl (execRdsel_faultReason h)

/-- A fault that stands after an instruction and not before it was raised by that instruction. -/
theorem exec_raises (hs : s.faultReason = none) (h : exec i s = .next t) (ht : t.faultReason = some x) :
    Raises s i x ∧ t = faultedWith s x := by
  obtain keeps | ⟨y, raises, rfl⟩ := exec_keepsOrRaises h
  · rw [keeps, hs] at ht
    cases ht
  · rw [raiseFault_eq_faultedWith hs] at ht ⊢
    cases ht
    exact ⟨raises, rfl⟩

/-- Settles O6: what a fault leaves is what `raiseFault` writes. -/
theorem modelFaultSticks : Obligations.ModelFaultSticks :=
  ⟨fun _ _ _ _ hs h ht => ⟨(exec_raises hs h ht).2, step_of_faulted ht⟩, fun _ _ => step_of_faulted,
    fun s x y hs => by simp [hs]⟩

/-! ### The reasons of each computation (R337) -/

theorem calc_bind_eq_fault {α β : Type} {v : Calc α} {f : α → Calc β} (h : v.bind f = .fault x) :
    v = .fault x ∨ ∃ a, f a = .fault x := by
  cases v with
  | value a => exact .inr ⟨a, h⟩
  | fault y => cases h; exact .inl rfl
  | illFormed d => cases h

theorem reason_of_toI32 {n : Int} (h : toI32 n = .fault x) : x = .resultRange := by
  unfold toI32 at h
  split at h <;> cases h
  rfl

theorem reason_of_pwlEval {v : Int} {model : List PwlSegment} (h : pwlEval v model = .fault x) :
    x = .pwlNoSegment ∨ x = .resultRange := by
  induction model with
  | nil => cases h; exact .inl rfl
  | cons g rest ih =>
    rw [pwlEval] at h
    split at h
    · split at h
      · cases h
      · exact .inr (reason_of_toI32 h)
    · exact ih h

theorem reason_of_perCalc {e w : Nat} (h : perCalc e w = .fault x) :
    (x = .perDivZero ∧ w = 0) ∨ (x = .perOverflow ∧ w ≠ 0) := by
  by_cases hw : w = 0
  · subst hw
    cases h
    exact .inl ⟨rfl, rfl⟩
  · by_cases overflow : PerOverflow e w
    · rw [perCalc_of_overflow hw overflow] at h
      cases h
      exact .inr ⟨rfl, hw⟩
    · rw [perCalc_of_not_overflow hw overflow] at h
      cases h

theorem reason_of_rssiTCalc {agc f : Word} (h : rssiTCalc c agc f = .fault x) :
    (x = .rssiFreqNoRange ∧ ∀ k ∈ c.rssiTRanges, ¬(k.fLo.toNat ≤ f.toNat ∧ f.toNat < k.fHi.toNat)) ∨
    x = .pwlNoSegment ∨ x = .resultRange := by
  unfold rssiTCalc at h
  split at h
  next outside =>
    cases h
    exact .inl ⟨rfl, fun k hk => by simpa using List.find?_eq_none.mp outside k hk⟩
  next k _ =>
    obtain range | ⟨v, h⟩ := calc_bind_eq_fault h
    · exact .inr (.inr (reason_of_toI32 range))
    · split at h
      next => cases h
      next =>
        obtain model | ⟨g, h⟩ := calc_bind_eq_fault h
        · exact .inr (reason_of_pwlEval model)
        · exact .inr (.inr (reason_of_toI32 h))

theorem reason_of_rssiSCalc {agc : Word} (h : rssiSCalc c agc = .fault x) : x = .resultRange := by
  unfold rssiSCalc at h
  split at h
  · cases h
  · exact reason_of_toI32 h

theorem reason_of_cnrTCalc {snr : Word} (h : cnrTCalc c snr = .fault x) : x = .resultRange := by
  obtain range | ⟨_, h⟩ := calc_bind_eq_fault h
  · exact reason_of_toI32 range
  · cases h

theorem sourceUnset_of_sourceByte {src : Source} (h : sourceByte c r src = none) : SourceUnset r src := by
  cases src <;> exact Option.map_eq_none_iff.mp h

/-- Settles O7, by what each of the six raising instructions can raise. -/
theorem faultReasonsByInstruction : Obligations.FaultReasonsByInstruction := by
  intro i s t x hs h ht
  cases (exec_raises hs h ht).1 with
  | @pwl id v _ _ _ fault =>
    obtain rfl | rfl := reason_of_pwlEval fault
    · exact .inl ⟨id, v, rfl⟩
    · exact .inl ⟨id, v, rfl⟩
  | @percalc e w _ fault =>
    obtain ⟨rfl, hw⟩ | ⟨rfl, hw⟩ := reason_of_perCalc fault
    · obtain rfl : w = 0 := BitVec.eq_of_toNat_eq hw
      exact ⟨e, rfl⟩
    · exact ⟨e, w, rfl, by rintro rfl; exact hw rfl⟩
  | @rssiT agc f _ fault =>
    obtain ⟨rfl, outside⟩ | rfl | rfl := reason_of_rssiTCalc fault
    · exact ⟨agc, f, rfl, outside⟩
    · exact .inr ⟨agc, f, rfl⟩
    · exact .inr (.inl ⟨agc, f, rfl⟩)
  | @rssiS agc _ fault =>
    obtain rfl := reason_of_rssiSCalc fault
    exact .inr (.inr (.inl ⟨agc, rfl⟩))
  | @cnrT snr _ fault =>
    obtain rfl := reason_of_cnrTCalc fault
    exact .inr (.inr (.inr ⟨snr, rfl⟩))
  | @wrv a src r hr unset => exact ⟨a, src, r, rfl, hr, sourceUnset_of_sourceByte unset⟩

end Sys2Proof.Proofs
end

section
/-! A faulted instance on a shared bus (R336, R348): it holds the lock for good, and the context stands still. -/

namespace Sys2Proof.Proofs

open Sys2Proof.Machine Sys2Proof.Claims

variable {b b' b₀ : SharedBus} {j k n : Nat} {s t : State} {f : FaultReason}

/-- The context `b` stands still since `b₀`, instance `k` having faulted in state `t`: it holds the lock, the bus has no further
event, and every instance of `b₀` that has not detached has its own state still. -/
structure Halted (b₀ : SharedBus) (k : Nat) (t : State) (b : SharedBus) : Prop where
  goesOn : GoesOn b₀ b
  owner : b.owner = some k
  busHistory : b.busHistory = b₀.busHistory
  length : b₀.instances.length ≤ b.instances.length
  holder : ∀ u, b.instanceAt k = some u → u = t
  own : ∀ n u, b.instanceAt n = some u →
    b₀.instanceAt n = none ∨ (b₀.instanceAt n).map (ownPart b₀.cfg) = some (ownPart b₀.cfg u)

theorem instanceAt_of_length_le (h : b.instances.length ≤ n) : b.instanceAt n = none := by
  rw [SharedBus.instanceAt, List.getElem?_eq_none h]
  rfl

/-- In a context that meets its invariant a faulted instance has the lock (R348). -/
theorem halted_refl (inv : ContextInv b) (ht : b.instanceAt k = some t) (hf : t.faultReason = some f) : Halted b k t b where
  goesOn := .refl inv
  owner := (inv.owner k t ht).mpr (.inr (by simp [hf]))
  busHistory := rfl
  length := le_rfl
  holder u hu := by simpa [ht] using hu.symm
  own n u hu := .inr (by rw [hu, Option.map_some])

/-! ### What can still happen -/

/-- The faulted instance does not move (R336). -/
theorem move_of_faulted (hs : b.instanceAt k = some s) (hf : s.faultReason = some f) :
    b.move k = .fault (.stuck f) := by
  have stuck : step (b.seenBy k s) = .fault (.stuck f) := step_of_faulted hf
  simp only [SharedBus.move, hs, stuck]

/-- A move of one instance leaves the state of another as it is. -/
theorem move_instanceAt_of_ne (hm : b.move j = .next b') (hne : k ≠ j) : b'.instanceAt k = b.instanceAt k := by
  obtain ⟨-, rfl⟩ | ⟨s, _, hs, -, rfl⟩ := SharedBus.move_cases hm
  · rfl
  · rw [SharedBus.instanceAt_set rfl (SharedBus.instanceAt_lt hs), if_neg hne]

/-- A move of another instance only waits for the lock. -/
theorem Halted.move (h : Halted b₀ k t b) (hf : t.faultReason = some f) (hm : b.move j = .next b') : Halted b₀ k t b' := by
  by_cases hj : j = k
  · subst hj
    cases hs : b.instanceAt j with
    | none =>
      obtain ⟨-, rfl⟩ | ⟨s, _, hs', -⟩ := SharedBus.move_cases hm
      · exact h
      · rw [hs] at hs'
        cases hs'
    | some s =>
      obtain rfl := h.holder s hs
      rw [move_of_faulted hs hf] at hm
      cases hm
  · have u := move_undisturbed_of_other_owner h.goesOn.inv h.owner hj hm
    refine ⟨h.goesOn.trans (move_goesOn h.goesOn.inv hm), u.owner.trans h.owner, u.busHistory.trans h.busHistory,
      u.length ▸ h.length, fun v hv => ?_, fun n v hv => ?_⟩
    · rw [move_instanceAt_of_ne hm (Ne.symm hj)] at hv
      exact h.holder v hv
    · have own := u.own n
      rw [hv, Option.map_some, eq_comm, Option.map_eq_some_iff, h.goesOn.cfg] at own
      obtain ⟨w, hw, e⟩ := own
      exact e ▸ h.own n w hw

/-- An instance that attaches has a number that no instance has had. -/
theorem Halted.join (h : Halted b₀ k t b) : Halted b₀ k t b.join := by
  have present : k < b.instances.length := h.goesOn.inv.attached k h.owner
  have length : b.join.instances.length = b.instances.length + 1 := by simp [SharedBus.join]
  have before := h.length
  refine ⟨h.goesOn.trans (join_goesOn h.goesOn.inv), h.owner, h.busHistory, by omega, fun u hu => ?_, fun n u hu => ?_⟩
  · rw [SharedBus.join_instanceAt, if_neg present.ne] at hu
    exact h.holder u hu
  · rw [SharedBus.join_instanceAt] at hu
    split at hu
    · exact .inl (instanceAt_of_length_le (by omega))
    · exact h.own n u hu

/-- A detach leaves the others their numbers and states, and the lock as it is (log 29). -/
theorem Halted.detach (h : Halted b₀ k t b) (hd : b.detach j = some b') : Halted b₀ k t b' := by
  have goesOn := h.goesOn.trans (detach_goesOn h.goesOn.inv hd)
  obtain rfl | ⟨s, hs, -, rfl, -⟩ := SharedBus.detach_cases hd
  · exact h
  · have stays {n : Nat} {u : State}
        (hu : SharedBus.instanceAt { b with instances := b.instances.set j none } n = some u) : b.instanceAt n = some u := by
      rw [SharedBus.instanceAt_set rfl (SharedBus.instanceAt_lt hs)] at hu
      split at hu
      · cases hu
      · exact hu
    exact ⟨goesOn, h.owner, h.busHistory, by simpa using h.length, fun u hu => h.holder u (stays hu),
      fun n u hu => h.own n u (stays hu)⟩

theorem halted_of_reaches (hr : SharedBus.Reaches b₀ b) (inv : ContextInv b₀) (ht : b₀.instanceAt k = some t)
    (hf : t.faultReason = some f) : Halted b₀ k t b := by
  induction hr with
  | refl => exact halted_refl inv ht hf
  | move _ _ hm ih => exact ih.move hf hm
  | join _ ih => exact ih.join
  | detach _ _ hd ih => exact ih.detach hd

/-- Settles O60: the context is halted right after the move that faults, and every action leaves it halted. -/
theorem faultedInstanceKeepsLock : Obligations.FaultedInstanceKeepsLock := by
  intro b b' b'' k s t inv _ _ hm ht hfault hr
  obtain ⟨f, hf⟩ := Option.isSome_iff_exists.mp hfault
  have moved := move_goesOn inv hm
  have halted := halted_of_reaches hr moved.inv ht hf
  refine ⟨halted.owner, halted.busHistory, fun u hu => ?_, moved.cfg ▸ halted.own⟩
  obtain rfl := halted.holder u hu
  exact ⟨rfl, f, move_of_faulted hu hf⟩

end Sys2Proof.Proofs
end

section
/-! READ_STATUS reads the demodulator and nothing else (R290, R294), whatever the environment answers. -/

namespace Sys2Proof.Proofs

open Sys2Proof.Machine

theorem statusField_target {c : Config} (wf : configWf c = true) : ∀ f ∈ c.statusFields, f.tgt = .demod := by
  intro f hf
  simp only [configWf, Config.tablesWf, Bool.and_eq_true] at wf
  obtain ⟨⟨-, fields⟩, -⟩ := wf
  have fieldWf : f.statusWf = true := List.all_eq_true.mp fields f hf
  simp only [RegField.statusWf, Bool.and_eq_true, beq_iff_eq] at fieldWf
  exact fieldWf.2

section Reads

variable {c : Config} {s : State} (demod : ∀ f ∈ c.statusFields, f.tgt = .demod)

include demod

theorem statusField_accessOnly {f : RegField} (hf : f ∈ c.statusFields) (hc : s.cfg = c) :
    AccessOnly c.demodAddr s (readField f s).state := by
  have access := readField_accessOnly f s
  rwa [hc, demod f hf] at access

theorem readLock_accessOnly {l : List (RegField × Word)} (hl : ∀ p ∈ l, p.1 ∈ c.statusFields) (hc : s.cfg = c) :
    AccessOnly c.demodAddr s (readLock l s).state := by
  induction l generalizing s with
  | nil => exact .refl ..
  | cons p rest ih =>
    obtain ⟨first, others⟩ := List.forall_mem_cons.mp hl
    exact Res.bind_accessOnly (statusField_accessOnly demod first hc) fun _ t h =>
      Res.bind_accessOnly (ih others (h.busOnly.cfg.trans hc)) fun _ _ _ => .refl ..

theorem readSymrate_accessOnly (hc : s.cfg = c) : AccessOnly c.demodAddr s (readSymrate s).state := by
  unfold readSymrate
  split
  next f hf => exact statusField_accessOnly demod (by simp [Config.statusFields, ← hc, hf]) hc
  next => exact .refl ..

/-- The satellite reading: the symbol rate, then the carrier-to-noise field (R290). -/
theorem readSymrate_bind_accessOnly {α : Type} {field : Config → RegField} {k : Word → Word → State → α}
    (hf : field c ∈ c.statusFields) (hc : s.cfg = c) :
    AccessOnly c.demodAddr s ((readSymrate s).bind fun rate s =>
      (readField (field s.cfg) s).bind fun x s => .ok (k rate x s) s).state := by
  refine Res.bind_accessOnly (readSymrate_accessOnly demod hc) fun _ t h => ?_
  have ht : t.cfg = c := h.busOnly.cfg.trans hc
  exact Res.bind_accessOnly (statusField_accessOnly demod (ht ▸ hf) ht) fun _ _ _ => .refl ..

theorem readCnr_accessOnly (sy : System) (full : Bool) (hc : s.cfg = c) :
    AccessOnly c.demodAddr s (readCnr sy full s).state := by
  cases full with
  | false => exact .refl ..
  | true =>
    cases sy with
    | isdbT =>
      exact Res.bind_accessOnly (statusField_accessOnly demod (by simp [Config.statusFields, hc]) hc) fun _ _ _ => .refl ..
    | isdbS => exact readSymrate_bind_accessOnly demod (field := Config.cnrFieldS) (by simp [Config.statusFields]) hc
    | isdbS3 => exact readSymrate_bind_accessOnly demod (field := Config.cnrFieldS3) (by simp [Config.statusFields]) hc

theorem readPer_accessOnly (sy : System) (hc : s.cfg = c) : AccessOnly c.demodAddr s (readPer sy s).state := by
  cases sy with
  | isdbT =>
    refine Res.bind_accessOnly (statusField_accessOnly demod (by simp [Config.statusFields, hc]) hc) fun _ t h => ?_
    have ht : t.cfg = c := h.busOnly.cfg.trans hc
    exact Res.bind_accessOnly (statusField_accessOnly demod (by simp [Config.statusFields, ht]) ht) fun _ _ _ => .refl ..
  | isdbS | isdbS3 => exact .refl ..

theorem statusWords_accessOnly (sy : System) (hc : s.cfg = c) : AccessOnly c.demodAddr s (statusWords sy s).state := by
  have lockFields : ∀ p ∈ s.cfg.lockCond.get sy, p.1 ∈ c.statusFields := by
    intro p hp
    rw [hc] at hp
    have listed : p ∈ c.lockCond.isdbT ++ c.lockCond.isdbS ++ c.lockCond.isdbS3 := by
      simp only [List.mem_append]
      cases sy with
      | isdbT => exact .inl (.inl hp)
      | isdbS => exact .inl (.inr hp)
      | isdbS3 => exact .inr hp
    exact List.mem_append_right _ (List.mem_map_of_mem listed)
  have agcField : c.agcField.get sy ∈ c.statusFields := by cases sy <;> simp [Config.statusFields, PerSystem.get]
  refine Res.bind_accessOnly (readLock_accessOnly demod lockFields hc) fun full t h => ?_
  have ht : t.cfg = c := h.busOnly.cfg.trans hc
  refine Res.bind_accessOnly (statusField_accessOnly demod (ht ▸ agcField) ht) fun agc u h => ?_
  have hu : u.cfg = c := h.busOnly.cfg.trans ht
  refine Res.bind_accessOnly (readCnr_accessOnly demod sy full hu) fun cnr v h => ?_
  have hv : v.cfg = c := h.busOnly.cfg.trans hu
  exact Res.bind_accessOnly (readPer_accessOnly demod sy hv) fun _ _ _ => .refl ..

end Reads

end Sys2Proof.Proofs
end

section
/-! The repeater discipline (R366). Every step has one of two kinds of traffic: outside a bracket it accesses the demodulator
only, with no repeater call; else it leaves the demodulator alone and accesses the tuner only while REP is 1. -/

namespace Sys2Proof.Proofs

open Sys2Proof.Machine Sys2Proof.Claims

variable {s t u : State} {c : Config} {r : Run} {a b : BusAddr} {es fs : List Event} {rep : Bool}

/-! ### Lists of events -/

theorem repAfterAll_append (rep : Bool) (es fs : List Event) :
    repAfterAll rep (es ++ fs) = repAfterAll (repAfterAll rep es) fs :=
  List.foldl_append

theorem coveredByRepeater_append (a : BusAddr) (rep : Bool) (es fs : List Event) :
    coveredByRepeater a rep (es ++ fs) = (coveredByRepeater a rep es && coveredByRepeater a (repAfterAll rep es) fs) := by
  induction es generalizing rep with
  | nil => rfl
  | cons e es ih => rw [List.cons_append, coveredByRepeater, coveredByRepeater, ih, Bool.and_assoc]; rfl

/-- An event is an access to one address at most. -/
theorem accesses_of_ne {e : Event} (hab : a ≠ b) (h : e.accesses a = true) : e.accesses b = false := by
  cases e with
  | busWrite | busRead =>
    simp only [Event.accesses, beq_iff_eq] at h
    simpa [Event.accesses, h] using hab
  | setRepeater | hook | delay => rfl

/-- An access is no repeater call, so it neither writes REP nor opens or closes a bracket. -/
theorem after_access {e : Event} (h : e.accesses a = true) (x : Bool) : repAfter x e = x ∧ bracketAfter x e = x := by
  cases e with
  | busWrite | busRead => exact ⟨rfl, rfl⟩
  | setRepeater | hook | delay => cases h

theorem repAfterAll_of_accesses (h : ∀ e ∈ es, e.accesses a = true) : repAfterAll rep es = rep := by
  induction es with
  | nil => rfl
  | cons e es ih =>
    obtain ⟨first, others⟩ := List.forall_mem_cons.mp h
    rw [repAfterAll, List.foldl_cons, (after_access first rep).1]
    exact ih others

theorem coveredByRepeater_of_on (h : ∀ e ∈ es, e.accesses a = true) (b : BusAddr) :
    coveredByRepeater b true es = true := by
  induction es with
  | nil => rfl
  | cons e es ih =>
    obtain ⟨first, others⟩ := List.forall_mem_cons.mp h
    simp [coveredByRepeater, (after_access first true).1, ih others]

theorem quietInBrackets_of_outside (h : ∀ e ∈ es, e.accesses a = true) (b : BusAddr) :
    quietInBrackets b false es = true := by
  induction es with
  | nil => rfl
  | cons e es ih =>
    obtain ⟨first, others⟩ := List.forall_mem_cons.mp h
    simp [quietInBrackets, (after_access first false).2, ih others]

theorem coveredByRepeater_of_untouched (h : ∀ e ∈ es, e.accesses a = false) (rep : Bool) :
    coveredByRepeater a rep es = true := by
  induction es generalizing rep with
  | nil => rfl
  | cons e es ih =>
    obtain ⟨first, others⟩ := List.forall_mem_cons.mp h
    simp [coveredByRepeater, first, ih others]

theorem quietInBrackets_of_untouched (h : ∀ e ∈ es, e.accesses a = false) (inside : Bool) :
    quietInBrackets a inside es = true := by
  induction es generalizing inside with
  | nil => rfl
  | cons e es ih =>
    obtain ⟨first, others⟩ := List.forall_mem_cons.mp h
    simp [quietInBrackets, first, ih others]

/-! ### The two kinds of traffic -/

/-- From `s` to `t` the demodulator was accessed, and nothing else happened on the bus. -/
def DemodTraffic (c : Config) (s t : State) : Prop :=
  ∃ es, t.history = s.history ++ es ∧ t.rep = s.rep ∧ ∀ e ∈ es, e.accesses c.demodAddr = true

/-- From `s` to `t` the demodulator was left alone, the tuner was accessed only while REP was 1, and REP followed the
repeater calls. -/
structure TunerTraffic (c : Config) (s : State) (es : List Event) (t : State) : Prop where
  history : t.history = s.history ++ es
  rep : t.rep = repAfterAll s.rep es
  covered : coveredByRepeater c.tunerAddr s.rep es = true
  demodUntouched : ∀ e ∈ es, e.accesses c.demodAddr = false

/-- The discipline of one step from `s` to `t` (R366). -/
def Disciplined (s t : State) : Prop :=
  (insideBracket s = false ∧ DemodTraffic s.cfg s t) ∨ ∃ es, TunerTraffic s.cfg s es t

theorem DemodTraffic.of_accessOnly (h : AccessOnly c.demodAddr s u) (hh : t.history = u.history) (hr : t.rep = u.rep) :
    DemodTraffic c s t := by
  obtain ⟨_, _, es, accesses, rfl⟩ := h
  exact ⟨es, hh, hr, accesses⟩

theorem TunerTraffic.none (hh : t.history = s.history) (hr : t.rep = s.rep) : TunerTraffic c s [] t :=
  ⟨by simpa using hh, hr, rfl, by simp⟩

theorem TunerTraffic.trans (h : TunerTraffic c s es t) (k : TunerTraffic c t fs u) : TunerTraffic c s (es ++ fs) u where
  history := by rw [k.history, h.history, List.append_assoc]
  rep := by rw [k.rep, h.rep, repAfterAll_append]
  covered := by rw [coveredByRepeater_append, h.covered, ← h.rep, k.covered, Bool.and_self]
  demodUntouched e he := (List.mem_append.mp he).elim (h.demodUntouched e) (k.demodUntouched e)

/-- The history and REP are all that the traffic says of the state it leaves. -/
theorem TunerTraffic.congr (h : TunerTraffic c s es t) (hh : u.history = t.history) (hr : u.rep = t.rep) :
    TunerTraffic c s es u :=
  ⟨hh.trans h.history, hr.trans h.rep, h.covered, h.demodUntouched⟩

theorem disciplined_of_same (hh : t.history = s.history) (hr : t.rep = s.rep) : Disciplined s t :=
  .inr ⟨[], .none hh hr⟩

theorem disciplined_of_noEvent (h : NoEvent s t) : Disciplined s t := disciplined_of_same h.1 h.2.1

/-- An event that accesses no register and calls no repeater (R206, R209). -/
theorem record_tunerTraffic {e : Event} (hrep : repAfter s.rep e = s.rep) (quiet : ∀ a, e.accesses a = false) :
    TunerTraffic c s [e] (s.record e) where
  history := rfl
  rep := hrep.symm
  covered := coveredByRepeater_of_untouched (by simp [quiet]) _
  demodUntouched := by simp [quiet]

theorem tunerTraffic_of_accessOnly (hne : c.demodAddr ≠ c.tunerAddr) (hrep : s.rep = true)
    (h : AccessOnly c.tunerAddr s t) : ∃ es, TunerTraffic c s es t := by
  obtain ⟨_, _, es, accesses, rfl⟩ := h
  have covered : coveredByRepeater c.tunerAddr s.rep es = true := by
    rw [hrep]
    exact coveredByRepeater_of_on accesses _
  exact ⟨es, rfl, (repAfterAll_of_accesses accesses).symm, covered, fun e he => accesses_of_ne hne.symm (accesses e he)⟩

/-! ### Repeater calls (R36, R220) -/

theorem setRepeater_tunerTraffic (c : Config) (b : Bool) (s : State) :
    ∃ ok, TunerTraffic c s [.setRepeater b ok] (setRepeater b s).state := by
  obtain ⟨-, e⟩ | ⟨-, e⟩ := setRepeater_cases b s <;> rw [e]
  · exact ⟨true, by simp [Res.state], rfl, rfl, by simp [Event.accesses]⟩
  · exact ⟨false, by simp [Res.state], s.drawn_rep, rfl, by simp [Event.accesses]⟩

theorem openRepeater_tunerTraffic (c : Config) (s : State) : ∃ es, TunerTraffic c s es (openRepeater s).state := by
  obtain ⟨ok, on⟩ := setRepeater_tunerTraffic c true s
  unfold openRepeater
  split <;> rename_i e <;> rw [e] at on
  · exact ⟨_, on⟩
  · obtain ⟨_, off⟩ := setRepeater_tunerTraffic c false _
    exact ⟨_, on.trans off⟩

theorem withRepeater_tunerTraffic {p : State → Res Unit} (hne : c.demodAddr ≠ c.tunerAddr)
    (body : ∀ s, AccessOnly c.tunerAddr s (p s).state) (s : State) :
    ∃ es, TunerTraffic c s es (withRepeater p s).state := by
  obtain ⟨es, opening⟩ := openRepeater_tunerTraffic c s
  unfold withRepeater
  split <;> rename_i ho <;> rw [ho] at opening
  · exact ⟨es, opening⟩
  · next t =>
    obtain ⟨fs, access⟩ := tunerTraffic_of_accessOnly hne (openRepeater_ok_rep ho) (body t)
    split <;> rename_i hp <;> rw [hp] at access <;>
      obtain ⟨_, closing⟩ := setRepeater_tunerTraffic c false _ <;>
      exact ⟨_, (opening.trans access).trans closing⟩

/-! ### Commands -/

theorem execSleep_rep (h : execSleep s = .next t) : t.rep = s.rep := by
  unfold execSleep at h
  split at h
  · split at h <;> cases h
    rfl
  all_goals cases h; rfl

theorem startTune_rep {sy : System} {bw : BitVec 4} {freq : Word} (h : startTune sy bw freq s = .next t) :
    t.rep = s.rep := by
  unfold startTune at h
  split at h
  · split at h
    · cases h
    · split at h <;> cases h <;> rfl
  all_goals cases h; rfl

theorem execSetFrontend_rep {sys : BitVec 3} {bw : BitVec 4} {freq sid : Word}
    (h : execSetFrontend sys bw freq sid s = .next t) : t.rep = s.rep := by
  unfold execSetFrontend at h
  split at h
  · cases h; rfl
  · split at h
    · exact startTune_rep h
    · cases h; rfl

theorem finishBits_disciplined (hne : s.cfg.demodAddr ≠ s.cfg.tunerAddr) (outside : insideBracket s = false) {tgt : Target}
    {p : State → Res Unit} (access : ∀ u, AccessOnly (s.cfg.addr tgt) u (p u).state) :
    Disciplined s (finishBits (onTarget tgt p s)) := by
  obtain ⟨hh, hr⟩ : (finishBits (onTarget tgt p s)).history = (onTarget tgt p s).state.history ∧
      (finishBits (onTarget tgt p s)).rep = (onTarget tgt p s).state.rep := by
    obtain ⟨-, e⟩ | ⟨-, e⟩ := finishBits_cases (onTarget tgt p s) <;> rw [e] <;> exact ⟨rfl, rfl⟩
  cases tgt with
  | demod => exact .inl ⟨outside, .of_accessOnly (access s) hh hr⟩
  | tuner =>
    obtain ⟨es, traffic⟩ := withRepeater_tunerTraffic hne access s
    exact .inr ⟨es, traffic.congr hh hr⟩

theorem execReadStatus_disciplined (wf : configWf s.cfg = true) (outside : insideBracket s = false)
    (h : execReadStatus s = .next t) : Disciplined s t := by
  unfold execReadStatus at h
  split at h
  next =>
    split at h
    next => cases h
    next sy _ =>
      have access := statusWords_accessOnly (statusField_target wf) sy (s := s) rfl
      split at h <;> rename_i hw <;> rw [hw] at access <;> cases h <;>
        exact .inl ⟨outside, .of_accessOnly access rfl rfl⟩
  all_goals cases h; exact disciplined_of_same rfl rfl

theorem insideBracket_of_no_run (h : s.run = none) : insideBracket s = false := by simp [insideBracket, h]

/-- Taking a command from the port calls no primitive (R90). -/
theorem Disciplined.of_takeCommand {rest : List Command} (h : Disciplined (takeCommand rest s) t) : Disciplined s t :=
  h.imp id fun ⟨es, traffic⟩ => ⟨es, traffic.history, traffic.rep, traffic.covered, traffic.demodUntouched⟩

theorem execCommand_disciplined {i : Instr} (wf : configWf s.cfg = true) (hne : s.cfg.demodAddr ≠ s.cfg.tunerAddr)
    (hr : s.run = none) (hi : i.isCommand = true) (h : exec i s = .next t) : Disciplined s t := by
  have outside := insideBracket_of_no_run hr
  cases i with
  | log2 _ | log10 _ | sext _ _ | getState | init => cases h; exact disciplined_of_same rfl rfl
  | percalc _ _ | rssiT _ _ | rssiS _ | cnrT _ => exact disciplined_of_noEvent (finish_pureEnd h).noEvent
  | tlookup _ _ => exact disciplined_of_noEvent (execTlookup_pureEnd h).noEvent
  | pwl _ _ => exact disciplined_of_noEvent (execPwl_pureEnd h).noEvent
  | cnrS _ _ _ => exact disciplined_of_noEvent (execCnrS_pureEnd h).noEvent
  | setBits _ _ _ _ => cases h; exact finishBits_disciplined hne outside fun _ => setBitsOp_accessOnly ..
  | setBankedBits _ _ _ _ _ => cases h; exact finishBits_disciplined hne outside fun _ => setBankedBitsOp_accessOnly ..
  | sleep => exact disciplined_of_same (execSleep_history h) (execSleep_rep h)
  | setFrontend _ _ _ _ => exact disciplined_of_same (execSetFrontend_history h) (execSetFrontend_rep h)
  | readStatus => exact execReadStatus_disciplined wf outside h
  | endSeq | wr _ _ | wrv _ _ | delay _ | pollz _ | rdsel _ | hook _ _ => cases hi

/-! ### ROM entries -/

/-- The brackets are around the tuner's sequences, and around no other (R224, R225). -/
theorem sequence_target (c : Config) (p : Phase) : (p.sequence c).target = if p.inBracket then .tuner else .demod := by
  cases p with
  | initDemod | initTuner | tuneReset => rfl
  | sleep old | tuneSleep old => cases old <;> rfl
  | tuneS2A req | tuneSame req | tuneLoad req =>
    obtain ⟨target, _, _, _⟩ := req
    cases target <;> rfl
  | tuneFreq req =>
    simp only [Phase.sequence, Phase.inBracket, if_true]
    unfold freqSequence
    split
    · rfl
    · rfl
    · split <;> rfl

/-- The END of a sequence opens or closes a bracket, or calls no primitive. -/
theorem afterSequence_tunerTraffic (c : Config) (r : Run) (s : State) : ∃ es, TunerTraffic c s es (afterSequence r s) := by
  obtain ⟨es, opening⟩ := openRepeater_tunerTraffic c s
  obtain ⟨ok, closing⟩ := setRepeater_tunerTraffic c false s
  have enterTuner_traffic (req : TuneReq) : ∃ es, TunerTraffic c s es (enterTuner r req s) := by
    refine ⟨es, ?_⟩
    unfold enterTuner
    split <;> rename_i e <;> rw [e] at opening
    · exact opening.congr rfl rfl
    · split <;> exact opening.congr rfl rfl
  unfold afterSequence
  cases r.phase with
  | initDemod =>
    refine ⟨es, ?_⟩
    simp only [enterColdboot]
    split <;> rename_i e <;> rw [e] at opening <;> exact opening.congr rfl rfl
  | initTuner =>
    refine ⟨[.setRepeater false ok], ?_⟩
    simp only [finishInit]
    split <;> rename_i e <;> rw [← closeRepeater, e] at closing <;> exact closing.congr rfl rfl
  | tuneFreq req =>
    refine ⟨[.setRepeater false ok], ?_⟩
    simp only [finishTune]
    split <;> rename_i e <;> rw [← closeRepeater, e] at closing
    · exact closing.congr rfl rfl
    · split <;> exact closing.congr rfl rfl
  | tuneS2A req | tuneSame req => exact enterTuner_traffic req
  | sleep | tuneSleep | tuneReset | tuneLoad => exact ⟨[], .none rfl rfl⟩

/-- What an entry of the running sequence of `r` has accessed when it leaves `u`: the demodulator outside a bracket, the
tuner inside one. -/
structure EntryTraffic (s : State) (r : Run) (u : State) : Prop where
  outside : r.phase.inBracket = false → AccessOnly s.cfg.demodAddr s u
  inside : r.phase.inBracket = true → ∃ es, TunerTraffic s.cfg s es u

/-- In a bracket the repeater is on (R220), so an access to the sequence's target keeps to the discipline. -/
theorem entryTraffic_of_accessOnly {tgt : Target} (hne : s.cfg.demodAddr ≠ s.cfg.tunerAddr)
    (on : r.phase.inBracket = true → s.rep = true) (htgt : tgt = (r.phase.sequence s.cfg).target)
    (h : AccessOnly (s.cfg.addr tgt) s u) : EntryTraffic s r u := by
  rw [htgt, sequence_target] at h
  constructor
  · intro hb
    rwa [hb] at h
  · intro hb
    rw [hb] at h
    exact tunerTraffic_of_accessOnly hne (on hb) h

theorem insideBracket_of_run (hr : s.run = some r) : insideBracket s = r.phase.inBracket := by simp [insideBracket, hr]

theorem EntryTraffic.advance (h : EntryTraffic s r u) (hr : s.run = some r) (r' : Run) : Disciplined s (advance r' u) := by
  cases hb : r.phase.inBracket with
  | false => exact .inl ⟨(insideBracket_of_run hr).trans hb, .of_accessOnly (h.outside hb) rfl rfl⟩
  | true =>
    obtain ⟨es, traffic⟩ := h.inside hb
    exact .inr ⟨es, traffic.congr rfl rfl⟩

/-- Where an entry fails in a bracket, the repeater-off call follows its accesses (R226, R340). -/
theorem EntryTraffic.failSequence (h : EntryTraffic s r u) (hr : s.run = some r) (st : Status) :
    Disciplined s (failSequence st r u) := by
  unfold Machine.failSequence
  cases hb : r.phase.inBracket with
  | false => exact .inl ⟨(insideBracket_of_run hr).trans hb, .of_accessOnly (h.outside hb) rfl rfl⟩
  | true =>
    obtain ⟨es, traffic⟩ := h.inside hb
    obtain ⟨_, closing⟩ := setRepeater_tunerTraffic s.cfg false u
    exact .inr ⟨_, (traffic.trans closing).congr rfl rfl⟩

theorem afterAccess_disciplined {res : Res Unit} (h : EntryTraffic s r res.state) (hr : s.run = some r) :
    Disciplined s (afterAccess r res) := by
  cases res with
  | ok _ u => exact h.advance hr r
  | err u => exact h.failSequence hr _

theorem afterPoll_disciplined {m : Byte} {res : Res Byte} (h : EntryTraffic s r res.state) (hr : s.run = some r) :
    Disciplined s (afterPoll m r res) := by
  cases res with
  | ok b u =>
    rw [afterPoll]
    split
    · exact h.advance hr r
    · exact h.failSequence hr _
  | err u => exact h.failSequence hr _

theorem execWrv_disciplined {x : Access} {src : Source} (hr : s.run = some r)
    (access : ∀ v, EntryTraffic s r (accessOp x v s).state) (h : execWrv x src s = .next t) : Disciplined s t := by
  rw [execWrv, inSequence_of_run hr] at h
  split at h <;> cases h
  · exact disciplined_of_same rfl rfl
  · exact afterAccess_disciplined (access _) hr

theorem execRdsel_disciplined {x : Access} (hr : s.run = some r) (access : EntryTraffic s r (readEntry x s).state)
    (h : execRdsel x s = .next t) : Disciplined s t := by
  rw [execRdsel, inSequence_of_run hr] at h
  split at h
  · cases h
  · split at h <;> rename_i hread <;> rw [hread] at access
    · cases h
      exact access.failSequence hr _
    · split at h <;> cases h
      exact access.advance hr _

/-- The entries of a sequence access its target only (R201 item 7). -/
theorem execEntry_disciplined {i : Instr} (hne : s.cfg.demodAddr ≠ s.cfg.tunerAddr) (hr : s.run = some r)
    (on : r.phase.inBracket = true → s.rep = true) (allowed : EntryAllowed s.cfg (r.phase.sequence s.cfg) i)
    (hi : i.isCommand = false) (h : exec i s = .next t) : Disciplined s t := by
  obtain ⟨wr, wrv, pollz, rdsel⟩ := allowed
  cases i with
  | endSeq => cases (exec_endSeq hr).symm.trans h; exact .inr (afterSequence_tunerTraffic ..)
  | wr x v =>
    cases (inSequence_of_run hr _).symm.trans h
    exact afterAccess_disciplined (entryTraffic_of_accessOnly hne on (wr x v rfl) (accessOp_accessOnly ..)) hr
  | wrv x src =>
    exact execWrv_disciplined hr
      (fun _ => entryTraffic_of_accessOnly hne on (wrv x src rfl) (accessOp_accessOnly ..)) h
  | pollz x =>
    cases (exec_pollz hr x).symm.trans h
    exact afterPoll_disciplined (entryTraffic_of_accessOnly hne on (pollz x rfl).1 (readEntry_accessOnly ..)) hr
  | rdsel x =>
    exact execRdsel_disciplined hr (entryTraffic_of_accessOnly hne on (rdsel x rfl).1 (readEntry_accessOnly ..)) h
  | delay _ | hook _ _ =>
    cases (inSequence_of_run hr _).symm.trans h
    exact .inr ⟨_, (record_tunerTraffic rfl fun _ => rfl).congr rfl rfl⟩
  | _ => cases hi

/-! ### Steps -/

theorem step_disciplined (good : GoodState s) (hne : s.cfg.demodAddr ≠ s.cfg.tunerAddr) (h : step s = .next t) :
    Disciplined s t := by
  obtain ⟨-, -, entry | idle | command⟩ := step_cases h
  · obtain ⟨r, e, i, hr, he, hd, hexec⟩ := entry
    obtain ⟨i', hd', allowed, -⟩ := exists_entry_of_sequenceWf (sequenceWf_of_configWf good.config _) he
    cases hd.symm.trans hd'
    exact execEntry_disciplined hne hr (good.block.bracket r hr) allowed (isCommand_of_decodeEntry hd) hexec
  · obtain ⟨-, rfl, -⟩ := idle
    exact disciplined_of_same rfl rfl
  · obtain ⟨_, rest, hr, -, -, illegal | legal⟩ := command
    · obtain ⟨_, -, rfl⟩ := illegal
      exact disciplined_of_same rfl rfl
    · obtain ⟨i, hd, hexec⟩ := legal
      have taken : Disciplined (takeCommand rest s) t :=
        execCommand_disciplined good.config hne hr (decodeCommand_isCommand hd) hexec
      exact taken.of_takeCommand

/-- Settles O54: traffic with the demodulator is outside every bracket, and the other kind leaves the demodulator alone. -/
theorem tunerOnlyThroughRepeater : Obligations.TunerOnlyThroughRepeater := by
  intro s t good hne h
  obtain ⟨outside, es, history, rep, accesses⟩ | ⟨es, traffic⟩ := step_disciplined good hne h
  · have tunerUntouched : ∀ e ∈ es, e.accesses s.cfg.tunerAddr = false :=
      fun e he => accesses_of_ne hne (accesses e he)
    refine ⟨es, history, coveredByRepeater_of_untouched tunerUntouched _, ?_, ?_, fun r hr hb => ?_⟩
    · rw [rep, repAfterAll_of_accesses accesses]
    · rw [outside]
      exact quietInBrackets_of_outside accesses _
    · rw [insideBracket_of_run hr, hb] at outside
      cases outside
  · exact ⟨es, traffic.history, traffic.covered, traffic.rep, quietInBrackets_of_untouched traffic.demodUntouched _,
      fun _ _ _ => traffic.demodUntouched⟩

end Sys2Proof.Proofs
end
